-- ==== Sys2Proof/Word.lean ====
section
/-! DEFINITION. The word types of B2B-CORE (R10, R12): 64-bit words, 128-bit counter, 8-bit bytes, all unsigned. -/

namespace Sys2Proof

/-- `u64` (R12): a chain-value, working-vector or message word, an address, a command word. -/
abbrev U64 := BitVec 64

/-- `u128` (R12): the byte counter T. -/
abbrev U128 := BitVec 128

/-- One byte of the IN byte space (R60). -/
abbrev Byte := BitVec 8

end Sys2Proof
end

