-- ==== Sys2Proof/Syntax.lean ====
section
/-! DEFINITION. The command set (R82, R83): one constructor per row of spec/opcode_table.json, and the
result codes a command ends with (R240). -/

namespace Sys2Proof

/-- The commands of R82. Every 4-bit field of R80 is a `Fin 16`, every flag bit a `Bool` (R81); the field
constraints of R83 are `Instr.wellFormed` (Sys2Proof/WellFormed.lean). -/
inductive Instr where
  /-- `NOP` (R224). -/
  | nop
  /-- `G va, vb, vc, vd, mx, my` (R111). -/
  | g (a b c d mx my : Fin 16)
  /-- `ROUND r` (R133). -/
  | round (r : Fin 16)
  /-- `LOADM` (R150). -/
  | loadm
  /-- `INIT f0, f1` (R151). -/
  | init (f0 f1 : Bool)
  /-- `FOLD` (R152). -/
  | fold
  /-- `COMPRESS f0, f1` (R153). -/
  | compress (f0 f1 : Bool)
  /-- `DRIVE fin, ln, k` (R180). -/
  | drive (fin ln : Bool) (k : Fin 16)
  deriving DecidableEq, Repr

/-- The result codes of STATUS.ERR (R240). The values 5..15 are never produced, so they have no constructor. -/
inductive ErrCode where
  /-- Code 0, OK. -/
  | ok
  /-- Code 1, ILLEGAL_OPCODE. -/
  | illegalOpcode
  /-- Code 2, ILLEGAL_FIELD. -/
  | illegalField
  /-- Code 3, RANGE. -/
  | range
  /-- Code 4, CONTRACT. -/
  | contract
  deriving DecidableEq, Repr

end Sys2Proof
end

