-- ==== Sys2Proof/WellFormed.lean ====
section
/-! DEFINITION. Well-formed commands: the "remaining field constraints" column of R83. -/

namespace Sys2Proof

/-- The field constraints of R83: G names four pairwise distinct slots, ROUND a round index 0..11, DRIVE a
non-zero stride. Every other command has none. -/
def Instr.wellFormed : Instr → Bool
  | .nop => true
  | .g a b c d _ _ => a != b && a != c && a != d && b != c && b != d && c != d
  | .round r => r.val ≤ 11
  | .loadm => true
  | .init _ _ => true
  | .fold => true
  | .compress _ _ => true
  | .drive _ _ k => k != 0

end Sys2Proof
end

