-- ==== Sys2Proof/Decode.lean ====
section
/-! DEFINITION. The command decoder and encoder (R80 to R86). Decoding reads a 64-bit command word; it is total and
rejects by result code. The field constraints of R83 (distinct slots, r at most 11, k not 0) are raised by the
commands' own rules (R111, R133, R180), so a word that breaks one of them still decodes to its command. -/

namespace Sys2Proof

/-- The 4-bit field `w[lo+3:lo]` (R12, R81: unsigned). -/
def nibble (w : U64) (lo : Nat) : Fin 16 := (w.extractLsb' lo 4).toFin

/-- One row of R83. -/
structure OpcodeRow where
  mnemonic  : String
  matchBits : U64
  mask      : U64
  deriving DecidableEq, Repr

/-- A word is selected when `(cmd & mask) == match` (R83). -/
def OpcodeRow.selects (row : OpcodeRow) (w : U64) : Bool := (w &&& row.mask) == row.matchBits

def rowNop      : OpcodeRow := ⟨"NOP",      0x0000000000000000, 0xFFFFFFFFFFFFFFFF⟩
def rowG        : OpcodeRow := ⟨"G",        0x0000000000000001, 0xFFFFFFFFF000000F⟩
def rowRound    : OpcodeRow := ⟨"ROUND",    0x0000000000000002, 0xFFFFFFFFFFFFFF0F⟩
def rowLoadm    : OpcodeRow := ⟨"LOADM",    0x0000000000000003, 0xFFFFFFFFFFFFFFFF⟩
def rowInit     : OpcodeRow := ⟨"INIT",     0x0000000000000004, 0xFFFFFFFFFFFFFFCF⟩
def rowFold     : OpcodeRow := ⟨"FOLD",     0x0000000000000005, 0xFFFFFFFFFFFFFFFF⟩
def rowCompress : OpcodeRow := ⟨"COMPRESS", 0x0000000000000006, 0xFFFFFFFFFFFFFFCF⟩
def rowDrive    : OpcodeRow := ⟨"DRIVE",    0x0000000000000007, 0xFFFFFFFFFFFFF0CF⟩

/-- The rows of R83, in opcode order. -/
def opcodeTable : List OpcodeRow :=
  [rowNop, rowG, rowRound, rowLoadm, rowInit, rowFold, rowCompress, rowDrive]

/-- The word is the command `i` when its row selects it; with a reserved bit set it is ILLEGAL_FIELD (R84 item 2). -/
def selectedBy (row : OpcodeRow) (w : U64) (i : Instr) : Except ErrCode Instr :=
  if row.selects w then .ok i else .error .illegalField

/-- Decoding (R82, R84 items 1 and 2): the opcode `cmd[3:0]` picks the row. -/
def decode (w : U64) : Except ErrCode Instr :=
  match (nibble w 0).val with
  | 0 => selectedBy rowNop w .nop
  | 1 => selectedBy rowG w
      (.g (nibble w 4) (nibble w 8) (nibble w 12) (nibble w 16) (nibble w 20) (nibble w 24))
  | 2 => selectedBy rowRound w (.round (nibble w 4))
  | 3 => selectedBy rowLoadm w .loadm
  | 4 => selectedBy rowInit w (.init (w.getLsbD 4) (w.getLsbD 5))
  | 5 => selectedBy rowFold w .fold
  | 6 => selectedBy rowCompress w (.compress (w.getLsbD 4) (w.getLsbD 5))
  | 7 => selectedBy rowDrive w (.drive (w.getLsbD 4) (w.getLsbD 5) (nibble w 8))
  | _ => .error .illegalOpcode

/-- A 4-bit field placed at bit `lo` (R86: `a << lo`). -/
def fieldAt (n : Fin 16) (lo : Nat) : U64 := BitVec.ofNat 64 n.val <<< lo

/-- A flag bit placed at bit `lo` (R86: `f << lo`). -/
def flagAt (b : Bool) (lo : Nat) : U64 := BitVec.ofNat 64 b.toNat <<< lo

/-- The assembled word of a command (R86). -/
def encode : Instr → U64
  | .nop => 0x0
  | .g a b c d mx my =>
      0x1 ||| fieldAt a 4 ||| fieldAt b 8 ||| fieldAt c 12 ||| fieldAt d 16 ||| fieldAt mx 20 ||| fieldAt my 24
  | .round r => 0x2 ||| fieldAt r 4
  | .loadm => 0x3
  | .init f0 f1 => 0x4 ||| flagAt f0 4 ||| flagAt f1 5
  | .fold => 0x5
  | .compress f0 f1 => 0x6 ||| flagAt f0 4 ||| flagAt f1 5
  | .drive fin ln k => 0x7 ||| flagAt fin 4 ||| flagAt ln 5 ||| fieldAt k 8

/-- The command the decoder reads from a table word of `nbits` bits (every bit above them 0). A command is one
64-bit word (R80), so a value that does not fit 64 bits is no command. -/
def decodeTableWord (nbits w : Nat) : Option Instr :=
  if w % 2 ^ nbits < 2 ^ 64 then
    match decode (BitVec.ofNat 64 (w % 2 ^ nbits)) with
    | .ok i => some i
    | .error _ => none
  else none

end Sys2Proof
end

