-- ==== Sys2Proof/Config.lean ====
section
/-! DEFINITION. What an implementation fixes (R11) and the free values: values the spec leaves unconstrained
(93_implementation_defined.md part B). A free value is an opaque constant applied to the counter
`State.draws`; no proof can see what it is. -/

namespace Sys2Proof

/-- P_CONTRACT_MODE (R11, R187): what DRIVE does with an input that breaks the caller contract. -/
inductive ContractMode where
  /-- This spec's value: raise CONTRACT. -/
  | fault
  /-- The named alternative (R193): compute the source's value. -/
  | compute
  deriving DecidableEq, Repr

/-- The parameters of R11 that the machine is built with. They stand in `State` as plain data that no step
changes, so that a statement about every state holds for every value of them (log 1). -/
structure Params where
  /-- P_IN_SIZE, OPEN: the size of the IN byte space in bytes, at most 2^64 (R11, R60). -/
  inSize : Nat
  /-- P_CONTRACT_MODE (R11). -/
  contractMode : ContractMode
  deriving DecidableEq, Repr

namespace Config

/-- FREE VALUE (log 4): what a host read of H, V, M, T_LO or T_HI returns while BUSY = 1, "a draw under no law"
(R227). -/
opaque busyRead : Nat → U64

/-- FREE VALUE (log 5): the round counter between commands (R33). -/
opaque freeRc : Nat → Fin 12
/-- FREE VALUE (log 5): the G-step counter between commands (R33). -/
opaque freeSc : Nat → Fin 8
/-- FREE VALUE (log 5): the DRIVE block offset between commands (R33). -/
opaque freeOff : Nat → U64
/-- FREE VALUE (log 5): the DRIVE final offset between commands (R33). -/
opaque freeFinOff : Nat → U64
/-- FREE VALUE (log 5): the DRIVE true tail length between commands (R33). -/
opaque freeFinLen : Nat → U64
/-- FREE VALUE (log 5): the DRIVE final-block buffer between commands (R33). -/
opaque freeFbuf : Nat → Vector Byte 128
/-- FREE VALUE (log 5): the DRIVE last-block mask between commands (R33). -/
opaque freeM0 : Nat → U64
/-- FREE VALUE (log 5): the DRIVE last-node mask between commands (R33). -/
opaque freeM1 : Nat → U64

end Config

end Sys2Proof
end

