-- ==== Sys2Proof/Machine/State.lean ====
section
/-! DEFINITION. The state of the machine as plain data (10_state.md), the events that drive it, the reasons a step
can stop, and the state after reset (R37). -/

namespace Sys2Proof.Machine

/-- STATUS (R29). The reserved bits read as 0 and ignore writes, so they hold nothing; the 64-bit word the host
reads is `Status.word` (Machine/Flags.lean). -/
structure Status where
  /-- Bit 0. -/
  busy : Bool
  /-- Bit 1. -/
  done : Bool
  /-- Bits 7:4, the values 0..4 only. -/
  err  : ErrCode
  /-- Bit 8, sticky: a host write was dropped because BUSY was 1. -/
  wrb  : Bool
  /-- Bit 9, sticky: the host touched a reserved register index. -/
  unm  : Bool
  deriving DecidableEq, Repr

/-- The hidden registers that sequence a command (R33). Between commands their values are unspecified. -/
structure Hidden where
  /-- Round counter. -/
  rc     : Fin 12
  /-- G-step counter inside a round. -/
  sc     : Fin 8
  /-- DRIVE block offset. -/
  off    : U64
  /-- DRIVE final offset. -/
  finOff : U64
  /-- DRIVE true tail length. -/
  finLen : U64
  /-- DRIVE final-block buffer. -/
  fbuf   : Vector Byte 128
  /-- DRIVE last-block mask. -/
  m0     : U64
  /-- DRIVE last-node mask. -/
  m1     : U64
  deriving DecidableEq, Repr

/-- The contents of the IN byte space (R60): the bytes that differ from `Memory.unlisted`, addresses rising. -/
structure Memory where
  cells : List Host.Cell
  deriving DecidableEq, Repr

/-- What an unlisted address of IN holds. DESIGN CHOICE (log 2): the spec gives IN no reset contents (R37). -/
def Memory.unlisted : Byte := 0

/-- The canonical form of IN: addresses strictly rising, no entry equal to an unlisted byte. -/
abbrev Memory.wf (m : Memory) : Prop :=
  m.cells.Pairwise (fun c c' => c.1 < c'.1) ∧ ∀ c ∈ m.cells, c.2 ≠ Memory.unlisted

/-- What a 6-bit register-port index names (R30). -/
inductive PortReg where
  | h (i : Fin 8)
  | v (i : Fin 16)
  | m (i : Fin 16)
  | tLo
  | tHi
  | inAddr
  | len
  | cmd
  | status
  /-- 0x2E..0x3F: no state (R32). -/
  | reserved
  deriving DecidableEq, Repr

/-- One atomic operation of the host (R20, R65, R69). -/
inductive HostOp where
  /-- `HostRegWrite(idx, v)` (R220). -/
  | regWrite (idx : Fin 64) (v : U64)
  /-- `HostRegRead(idx)` (R221). -/
  | regRead (idx : Fin 64)
  /-- `HostInWrite(a, v)` (R65); an address is a natural number (R13). -/
  | inWrite (a : Nat) (v : Byte)
  /-- `HostInRead(a)` (R65). -/
  | inRead (a : Nat)
  deriving DecidableEq, Repr

/-- What comes next (log 3): the host moves, the engine gets a turn, or reset is asserted (R20, R223, R280). -/
inductive Event where
  | host (op : HostOp)
  | engine
  | reset
  deriving DecidableEq, Repr

/-- What the host's latest operation returned. -/
inductive Answer where
  /-- It returned nothing (a write). -/
  | none
  /-- A register read's 64 bits. -/
  | word (v : U64)
  /-- An IN read's byte. -/
  | byte (v : Byte)
  deriving DecidableEq, Repr

/-- The whole state: R21 to R33, the IN byte space (R60), and the model's own fields. -/
structure State where
  /-- Chain value H[0..7] (R21). -/
  h      : Vector U64 8
  /-- Working vector V[0..15] (R22). -/
  v      : Vector U64 16
  /-- Message words M[0..15] (R23). -/
  m      : Vector U64 16
  /-- Byte counter T (R24). -/
  t      : U128
  /-- IN_ADDR (R26). -/
  inAddr : U64
  /-- LEN (R27). -/
  len    : U64
  /-- CMD (R28): the last word accepted at issue. -/
  cmd    : U64
  /-- STATUS (R29). -/
  status : Status
  /-- PEND (R33): a command is in flight. -/
  pend   : Bool
  /-- rc, sc, OFF, FIN_OFF, FIN_LEN, FBUF, m0, m1 (R33). -/
  hidden : Hidden
  /-- The IN byte space (R60). -/
  mem    : Memory
  /-- P_IN_SIZE and P_CONTRACT_MODE (R11): fixed for the machine, no step changes them. -/
  params : Params
  /-- MODEL'S OWN (log 3): the events to come, the next one first. -/
  agenda : List Event
  /-- MODEL'S OWN (log 6): what the host's latest operation returned. -/
  answer : Answer
  /-- MODEL'S OWN (log 4, 5): how many free values have been drawn. -/
  draws  : Nat
  deriving DecidableEq, Repr

/-- Why a step stops. -/
inductive Fault where
  /-- `HZ_IN_WRITE` (R293, R295). Raised by a HostInWrite into the read range of the command in flight. Safe: the
  hardware goes on with a race between the old and the new byte, and the model picks neither. -/
  | hzInWrite (a : Nat)
  /-- The stuck case of R65 and R295. Raised by a host IN access at an address outside 0 .. P_IN_SIZE-1, which has no
  step in the model. Safe: the model stops. -/
  | inOutside (a : Nat)
  deriving DecidableEq, Repr

/-- Why a step is refused. No command of this machine is refused: a word that is no command completes with an error
code (R84). -/
inductive Refusal where
  /-- An instruction without a meaning, refused in exec's arm. Raised by no arm: every row of the table is modelled. -/
  | notModelled (mnemonic : String)
  deriving DecidableEq, Repr

/-- The outcomes of a step of this machine. -/
abbrev Outcome := Host.Outcome State Fault Refusal

namespace State

def setH (s : State) (x : Vector U64 8) : State := { s with h := x }
def setV (s : State) (x : Vector U64 16) : State := { s with v := x }
def setM (s : State) (x : Vector U64 16) : State := { s with m := x }
def setT (s : State) (x : U128) : State := { s with t := x }
def setInAddr (s : State) (x : U64) : State := { s with inAddr := x }
def setLen (s : State) (x : U64) : State := { s with len := x }
def setCmd (s : State) (x : U64) : State := { s with cmd := x }
def setStatus (s : State) (x : Status) : State := { s with status := x }
def setPend (s : State) (x : Bool) : State := { s with pend := x }
def setHidden (s : State) (x : Hidden) : State := { s with hidden := x }
def setMem (s : State) (x : Memory) : State := { s with mem := x }
def setAgenda (s : State) (x : List Event) : State := { s with agenda := x }
def setAnswer (s : State) (x : Answer) : State := { s with answer := x }
def setDraws (s : State) (x : Nat) : State := { s with draws := x }

end State

/-- STATUS after reset: 0 (R37). -/
def Status.reset : Status := { busy := false, done := false, err := .ok, wrb := false, unm := false }

/-- The hidden registers at the `n`-th free value: unspecified between commands and after reset (R33, R37; log 5). -/
def Hidden.free (n : Nat) : Hidden :=
  { rc := Config.freeRc n, sc := Config.freeSc n, off := Config.freeOff n, finOff := Config.freeFinOff n,
    finLen := Config.freeFinLen n, fbuf := Config.freeFbuf n, m0 := Config.freeM0 n, m1 := Config.freeM1 n }

/-- The machine right after reset (R37, R280): every register 0, idle, the hidden registers unspecified. IN is not
reset; nothing is listed (log 2). P_IN_SIZE is OPEN and stands at 4096, the size 95_test_vectors.md assumes
(DESIGN CHOICE, log 1); P_CONTRACT_MODE is fault (R11). -/
def State.reset : State :=
  { h := Vector.replicate 8 0, v := Vector.replicate 16 0, m := Vector.replicate 16 0, t := 0, inAddr := 0, len := 0,
    cmd := 0, status := Status.reset, pend := false, hidden := Hidden.free 0, mem := ⟨[]⟩,
    params := { inSize := 4096, contractMode := .fault }, agenda := [], answer := .none, draws := 1 }

end Sys2Proof.Machine
end

