-- ==== Sys2Proof/Machine/Flags.lean ====
section
/-! DEFINITION. Flags: the boolean-to-mask conversion (R13), the STATUS word (R29), the STATUS write (R225) and the
STATUS updates of the command lifecycle (R222, R223). -/

namespace Sys2Proof.Machine

/-- `mask64` (R13): all ones if true, 0 if false. -/
def mask64 (b : Bool) : U64 := if b then 0xFFFFFFFFFFFFFFFF else 0x0000000000000000

/-- The number of a result code (R240). -/
def errNumber : ErrCode → Nat
  | .ok => 0
  | .illegalOpcode => 1
  | .illegalField => 2
  | .range => 3
  | .contract => 4

/-- The 64-bit STATUS word (R29): BUSY in bit 0, DONE in bit 1, ERR in bits 7:4, WRB in bit 8, UNM in bit 9, every
other bit 0. -/
def Status.word (x : Status) : U64 :=
  BitVec.ofNat 64 x.busy.toNat ||| BitVec.ofNat 64 x.done.toNat <<< 1 ||| BitVec.ofNat 64 (errNumber x.err) <<< 4
    ||| BitVec.ofNat 64 x.wrb.toNat <<< 8 ||| BitVec.ofNat 64 x.unm.toNat <<< 9

/-- A write of `v` to STATUS (R225): a written 1 clears DONE, WRB or UNM; nothing else changes. -/
def Status.writeOneClears (x : Status) (v : U64) : Status :=
  { x with
    done := x.done && !v.getLsbD 1
    wrb := x.wrb && !v.getLsbD 8
    unm := x.unm && !v.getLsbD 9 }

/-- STATUS when a command is captured (R222): DONE and ERR are cleared. -/
def Status.captured (x : Status) : Status := { x with done := false, err := .ok }

/-- STATUS when a command goes in flight (R222): BUSY is set. -/
def Status.started (x : Status) : Status := { x with busy := true }

/-- STATUS when a command completes (R223): BUSY is cleared and DONE set; ERR stays. -/
def Status.completed (x : Status) : Status := { x with busy := false, done := true }

/-- STATUS when a command completes with an error (R16, R242). -/
def Status.failed (x : Status) (e : ErrCode) : Status := { x with busy := false, done := true, err := e }

end Sys2Proof.Machine
end

