-- ==== Sys2Proof/Machine/Ops.lean ====
section
/-! DEFINITION. The named operations over the IN byte space and the registers: reading and writing bytes (R15), taking
an error (R16, R242), and completing a command (R223). There is no return from an error: the next issue clears it
(R243). -/

namespace Sys2Proof.Machine

/-- The byte at address `a` in a list of cells. -/
def lookupCell (a : Nat) : List Host.Cell → Byte
  | [] => Memory.unlisted
  | c :: rest => if c.1 = a then c.2 else lookupCell a rest

/-- The cells after the byte at `a` becomes `v`, in canonical form: an unlisted value has no entry. -/
def insertCell (a : Nat) (v : Byte) : List Host.Cell → List Host.Cell
  | [] => if v = Memory.unlisted then [] else [(a, v)]
  | c :: rest =>
      if a < c.1 then (if v = Memory.unlisted then c :: rest else (a, v) :: c :: rest)
      else if a = c.1 then (if v = Memory.unlisted then rest else (a, v) :: rest)
      else c :: insertCell a v rest

/-- `IN[a]` (R15). -/
def Memory.read (mem : Memory) (a : Nat) : Byte := lookupCell a mem.cells

/-- `MemWrite(a, 1, v)` (R15): only the host does this. -/
def Memory.write (mem : Memory) (a : Nat) (v : Byte) : Memory := ⟨insertCell a v mem.cells⟩

/-- `MemReadBytes(a, 128)` (R15): the block at `a`, `IN[a]` first. Addresses are natural numbers and never wrap (R13). -/
def Memory.readBlock (mem : Memory) (a : Nat) : Vector Byte 128 := Vector.ofFn fun j => mem.read (a + j.val)

/-- The little-endian value of a sequence of bytes, the first byte lowest (R15, R62). -/
def littleEndian : List Byte → Nat
  | [] => 0
  | b :: rest => b.toNat + 256 * littleEndian rest

/-- `MemRead(a, 8)` (R15). -/
def Memory.readWord (mem : Memory) (a : Nat) : U64 :=
  BitVec.ofNat 64 (littleEndian ((List.range 8).map fun j => mem.read (a + j)))

/-- `LE64(buf, i)` (R15) of a 128-byte block: the bytes 8i .. 8i+7. -/
def le64 (buf : Vector Byte 128) (i : Fin 16) : U64 :=
  BitVec.ofNat 64 (littleEndian (List.ofFn fun j : Fin 8 => buf[8 * i.val + j.val]))

/-- The error primitive `raise E(code)` (R16, R242): the command completes at once, only STATUS (and PEND, which equals
BUSY) changing. -/
def State.raise (s : State) (e : ErrCode) : State := (s.setStatus (s.status.failed e)).setPend false

/-- A command completes (R223): BUSY <- 0, DONE <- 1, PEND <- 0. -/
def State.complete (s : State) : State := (s.setStatus s.status.completed).setPend false

/-- The hidden registers are unspecified between commands (R33): they take the next free value. -/
def State.scramble (s : State) : State := (s.setHidden (Hidden.free s.draws)).setDraws (s.draws + 1)

/-- The engine's completion of a command (R223): it completes and leaves the hidden registers unspecified (R33). -/
def State.finish (s : State) : State := s.complete.scramble

/-- A command word is captured at issue (R222): CMD holds it, DONE and ERR are cleared. -/
def State.capture (s : State) (w : U64) : State := (s.setCmd w).setStatus s.status.captured

/-- A command goes in flight (R222): BUSY <- 1, PEND <- 1. -/
def State.begin (s : State) : State := (s.setStatus s.status.started).setPend true

/-- A command by its rule's pseudocode (R16, R18): the first `raise` line that applies ends it; otherwise its body runs
and it completes. -/
def runCommand (check : Option ErrCode) (body : State → State) (s : State) : Outcome :=
  match check with
  | some e => .next (s.raise e)
  | none => .next (body s).finish

end Sys2Proof.Machine
end

