-- ==== Sys2Proof/Machine/Operands.lean ====
section
/-! DEFINITION. Arithmetic primitives (R13) and operands: the field constraints of G, ROUND and DRIVE (R84 item 3), the
read ranges of LOADM, COMPRESS and DRIVE (R61), and the quantities DRIVE derives from LEN and k (R181 to R187). -/

namespace Sys2Proof.Machine

/-- `rotr64(v, n)` (R13), used with n in 32, 24, 16, 63. -/
def rotr64 (v : U64) (n : Nat) : U64 := (v >>> n) ||| (v <<< (64 - n))

/-- `sat_sub(a, b)` (R13). -/
def satSub (a b : Nat) : Nat := if a ≥ b then a - b else 0

/-- `T[63:0]` (R14). -/
def low64 (t : U128) : U64 := t.extractLsb' 0 64

/-- `T[127:64]` (R14). -/
def high64 (t : U128) : U64 := t.extractLsb' 64 64

/-- `hi ++ lo` (R12): the counter with the given halves. -/
def joinHalves (hi lo : U64) : U128 := hi ++ lo

/-- `T +128 delta` (R13, R189). -/
def addCounter (t : U128) (delta : U64) : U128 := t + delta.setWidth 128

/-- The four slot fields of G are pairwise distinct (R111). -/
def slotsDistinct (a b c d : Fin 16) : Bool := a != b && a != c && a != d && b != c && b != d && c != d

/-- The `raise` lines of G on field values (R111). -/
def checkG (a b c d : Fin 16) : Option ErrCode := if slotsDistinct a b c d then none else some .illegalField

/-- The `raise` line of ROUND on the round index (R133). -/
def checkRound (r : Fin 16) : Option ErrCode := if r.val > 11 then some .illegalField else none

/-- The range test of LOADM and COMPRESS (R61), on unbounded naturals. -/
def checkBlockRange (s : State) : Option ErrCode :=
  if s.inAddr.toNat + 128 > s.params.inSize then some .range else none

/-- The padded block width `W = 128 * k` (R181). -/
def blockWidth (k : Fin 16) : Nat := 128 * k.val

/-- FIN_OFF (R183): the greatest multiple of W not above `max(LEN - 1, 0)`. -/
def finalOffset (len w : Nat) : Nat := satSub len 1 - satSub len 1 % w

/-- FIN_LEN (R184): the bytes of the final block, at most 128. -/
def tailLength (len w : Nat) : Nat := if len = 0 then 0 else min (len - finalOffset len w) 128

/-- The call breaks the caller contract (R187): not final, and the final block is not full. -/
def contractBroken (fin : Bool) (len w : Nat) : Bool := !fin && (len == 0 || len - finalOffset len w < 128)

/-- The `raise` lines of DRIVE on field values, range and contract, in the order of R180 and R241. -/
def checkDrive (fin : Bool) (k : Fin 16) (s : State) : Option ErrCode :=
  if k = 0 then some .illegalField
  else if s.inAddr.toNat + s.len.toNat > s.params.inSize then some .range
  else if s.params.contractMode = .fault && contractBroken fin s.len.toNat (blockWidth k) then some .contract
  else none

/-- The padded final block (R185): FIN_LEN bytes from `a`, then zeros. -/
def paddedBlock (mem : Memory) (a finLen : Nat) : Vector Byte 128 :=
  Vector.ofFn fun j => if j.val < finLen then mem.read (a + j.val) else 0

end Sys2Proof.Machine
end

