-- ==== Sys2Proof/Machine/Mixer.lean ====
section
/-! DEFINITION. The G mixer (40_mixer.md). -/

namespace Sys2Proof.Machine

/-- `Gfun(V, a, b, c, d, x, y)` (R110): the eight statements, in order. -/
def gfun (v : Vector U64 16) (a b c d : Fin 16) (x y : U64) : Vector U64 16 :=
  let v := v.set a (v[a] + v[b] + x)
  let v := v.set d (rotr64 (v[d] ^^^ v[a]) 32)
  let v := v.set c (v[c] + v[d])
  let v := v.set b (rotr64 (v[b] ^^^ v[c]) 24)
  let v := v.set a (v[a] + v[b] + y)
  let v := v.set d (rotr64 (v[d] ^^^ v[a]) 16)
  let v := v.set c (v[c] + v[d])
  v.set b (rotr64 (v[b] ^^^ v[c]) 63)

/-- `G va, vb, vc, vd, mx, my` (R111): x and y are read before statement 1. -/
def execG (a b c d mx my : Fin 16) (s : State) : Outcome :=
  runCommand (checkG a b c d) (fun s => s.setV (gfun s.v a b c d s.m[mx] s.m[my])) s

end Sys2Proof.Machine
end

