-- ==== Sys2Proof/Machine/Round.lean ====
section
/-! DEFINITION. The round dispatcher (41_round.md). -/

namespace Sys2Proof.Machine

/-- G step `i` of round `r` (R130, R132): the slots from GSLOT, the message words from SIGMA. -/
def roundStep (m : Vector U64 16) (r : Fin 12) (v : Vector U64 16) (i : Fin 8) : Vector U64 16 :=
  gfun v gslot[i].1 gslot[i].2.1 gslot[i].2.2.1 gslot[i].2.2.2 m[sigma[r][2 * i.val]] m[sigma[r][2 * i.val + 1]]

/-- `Round(V, M, r)` (R132): the steps 0..7 in this order. -/
def roundFn (v m : Vector U64 16) (r : Fin 12) : Vector U64 16 := (List.finRange 8).foldl (roundStep m r) v

/-- The body of ROUND (R133). An index above 11 never gets here: `checkRound` raises ILLEGAL_FIELD. -/
def roundBody (r : Fin 16) (s : State) : State := if h : r.val < 12 then s.setV (roundFn s.v s.m ⟨r.val, h⟩) else s

/-- `ROUND r` (R133). -/
def execRound (r : Fin 16) (s : State) : Outcome := runCommand (checkRound r) (roundBody r) s

end Sys2Proof.Machine
end

