-- ==== Sys2Proof/Machine/Block.lean ====
section
/-! DEFINITION. The block compressor (42_block.md): the stages parse, initialise, rounds and fold, the commands LOADM,
INIT, FOLD and COMPRESS, and CompressBlock, which DRIVE also uses. -/

namespace Sys2Proof.Machine

/-- The working vector INIT builds (R151). -/
def initVector (h : Vector U64 8) (t : U128) (f0 f1 : Bool) : Vector U64 16 :=
  #v[h[0], h[1], h[2], h[3], h[4], h[5], h[6], h[7], iv[0], iv[1], iv[2], iv[3],
     iv[4] ^^^ low64 t, iv[5] ^^^ high64 t, iv[6] ^^^ mask64 f0, iv[7] ^^^ mask64 f1]

/-- The chain value FOLD leaves (R152, R157): both halves of V are XORed into H. -/
def foldVector (h : Vector U64 8) (v : Vector U64 16) : Vector U64 8 :=
  Vector.ofFn fun i => h[i] ^^^ v[i.val] ^^^ v[i.val + 8]

/-- The parse stage of CompressBlock (R154 step 2). -/
def parseStage (blk : Vector Byte 128) (s : State) : State := s.setM (Vector.ofFn fun i => le64 blk i)

/-- The initialise stage (R151, R154 step 1). -/
def initStage (f0 f1 : Bool) (s : State) : State := s.setV (initVector s.h s.t f0 f1)

/-- The fold stage (R152, R154 step 4). -/
def foldStage (s : State) : State := s.setH (foldVector s.h s.v)

/-- The hidden counters after a G step (R136): sc runs 0..7 and then rc advances. -/
def Hidden.nextStep (x : Hidden) : Hidden :=
  if h : x.sc.val + 1 < 8 then { x with sc := ⟨x.sc.val + 1, h⟩ }
  else if h : x.rc.val + 1 < 12 then { x with sc := 0, rc := ⟨x.rc.val + 1, h⟩ }
  else { x with sc := 0, rc := 0 }

/-- One hidden G step (R136): step sc of Round(V, M, rc), and the counters move on. -/
def gStep (s : State) : State :=
  (s.setV (roundStep s.m s.hidden.rc s.v s.hidden.sc)).setHidden s.hidden.nextStep

/-- `n` hidden G steps. -/
def gSteps : Nat → State → State
  | 0, s => s
  | n + 1, s => gSteps n (gStep s)

/-- The rounds stage (R154 step 3, R136): the 96 G steps from (rc, sc) = (0, 0). -/
def roundsStage (s : State) : State := gSteps 96 (s.setHidden { s.hidden with rc := 0, sc := 0 })

/-- `CompressBlock(blk, f0, f1)` (R154, R155): one parse, one initialise, the 96 G steps, one fold. -/
def compressBlock (blk : Vector Byte 128) (f0 f1 : Bool) (s : State) : State :=
  foldStage (roundsStage (initStage f0 f1 (parseStage blk s)))

/-- The body of LOADM (R150): M[i] <- MemRead(IN_ADDR + 8*i, 8). -/
def loadmBody (s : State) : State := s.setM (Vector.ofFn fun i => s.mem.readWord (s.inAddr.toNat + 8 * i.val))

/-- `LOADM` (R150). -/
def execLoadm (s : State) : Outcome := runCommand (checkBlockRange s) loadmBody s

/-- `INIT f0, f1` (R151). -/
def execInit (f0 f1 : Bool) (s : State) : Outcome := runCommand none (initStage f0 f1) s

/-- `FOLD` (R152). -/
def execFold (s : State) : Outcome := runCommand none foldStage s

/-- `COMPRESS f0, f1` (R153). -/
def execCompress (f0 f1 : Bool) (s : State) : Outcome :=
  runCommand (checkBlockRange s) (fun s => compressBlock (s.mem.readBlock s.inAddr.toNat) f0 f1 s) s

end Sys2Proof.Machine
end

