-- ==== Sys2Proof/Machine/Driver.lean ====
section
/-! DEFINITION. The multi-block controller (43_driver.md). -/

namespace Sys2Proof.Machine

/-- The hidden registers DRIVE sets before its block loop (R183 to R186, R188): OFF, FIN_OFF, FIN_LEN, FBUF and the
masks. -/
def driveSetup (fin ln : Bool) (w : Nat) (s : State) : State :=
  let finOff := finalOffset s.len.toNat w
  let finLen := tailLength s.len.toNat w
  s.setHidden { s.hidden with
    off := 0
    finOff := BitVec.ofNat 64 finOff
    finLen := BitVec.ofNat 64 finLen
    fbuf := paddedBlock s.mem (s.inAddr.toNat + finOff) finLen
    m0 := mask64 fin
    m1 := mask64 (fin && ln) }

/-- DRIVE stands at its final block (R188). -/
def atFinal (s : State) : Bool := s.hidden.off == s.hidden.finOff

/-- The body of one turn of the block loop (R188, R189): T advances by the block's delta, then the block is
compressed. -/
def driveBlock (s : State) : State :=
  if atFinal s then
    compressBlock s.hidden.fbuf (s.hidden.m0 != 0) (s.hidden.m1 != 0) (s.setT (addCounter s.t s.hidden.finLen))
  else
    compressBlock (s.mem.readBlock (s.inAddr.toNat + s.hidden.off.toNat)) false false
      (s.setT (addCounter s.t 128))

/-- OFF <- OFF + W (R188). -/
def advanceOff (w : Nat) (s : State) : State :=
  s.setHidden { s.hidden with off := s.hidden.off + BitVec.ofNat 64 w }

/-- The block loop (R188), with at most `n` turns: it ends straight after the final block. -/
def driveLoop : Nat → Nat → State → State
  | 0, _, s => s
  | n + 1, w, s => if atFinal s then driveBlock s else driveLoop n w (advanceOff w (driveBlock s))

/-- The number of compressions `N = FIN_OFF / W + 1` (R190). -/
def blockCount (len w : Nat) : Nat := finalOffset len w / w + 1

/-- The body of DRIVE (R180): the derived values, then the block loop, which takes `blockCount` turns (R190, R191). -/
def driveBody (fin ln : Bool) (k : Fin 16) (s : State) : State :=
  driveLoop (blockCount s.len.toNat (blockWidth k)) (blockWidth k) (driveSetup fin ln (blockWidth k) s)

/-- `DRIVE fin, ln, k` (R180). -/
def execDrive (fin ln : Bool) (k : Fin 16) (s : State) : Outcome :=
  runCommand (checkDrive fin k s) (driveBody fin ln k) s

end Sys2Proof.Machine
end

