-- ==== Sys2Proof/Machine/Control.lean ====
section
/-! DEFINITION. NOP (R224), and the error a decoded command raises at issue (R222, R241). -/

namespace Sys2Proof.Machine

/-- `NOP` (R224): it does nothing but complete. -/
def execNop (s : State) : Outcome := .next s.complete

/-- The first error a decoded command raises (R241 items 3 to 5), or none. -/
def issueError : Instr → State → Option ErrCode
  | .nop, _ => none
  | .g a b c d _ _, _ => checkG a b c d
  | .round r, _ => checkRound r
  | .loadm, s => checkBlockRange s
  | .init _ _, _ => none
  | .fold, _ => none
  | .compress _ _, s => checkBlockRange s
  | .drive fin _ k, s => checkDrive fin k s

/-- The command completes in its issue step (R222): it raises an error, or it is NOP. -/
def completesAtIssue (i : Instr) (s : State) : Bool := (issueError i s).isSome || i == .nop

end Sys2Proof.Machine
end

