-- ==== Sys2Proof/Machine/Dispatch.lean ====
section
/-! DEFINITION. One arm per command (R82). `exec i s` is the whole rule of the command `i`: its `raise` lines, and its
body with the completion of R223. -/

namespace Sys2Proof.Machine

def exec (i : Instr) (s : State) : Host.Outcome State Fault Refusal :=
  match i with
  | .nop => Sys2Proof.Machine.execNop s
  | .g a b c d mx my => Sys2Proof.Machine.execG a b c d mx my s
  | .round r => Sys2Proof.Machine.execRound r s
  | .loadm => Sys2Proof.Machine.execLoadm s
  | .init f0 f1 => Sys2Proof.Machine.execInit f0 f1 s
  | .fold => Sys2Proof.Machine.execFold s
  | .compress f0 f1 => Sys2Proof.Machine.execCompress f0 f1 s
  | .drive fin ln k => Sys2Proof.Machine.execDrive fin ln k s

end Sys2Proof.Machine
end

