-- ==== Sys2Proof/Machine/Port.lean ====
section
/-! DEFINITION. The host's side (44_control.md, 20_memory.md): the register port, issue, the engine's completion step,
the host's IN accesses and reset. -/

namespace Sys2Proof.Machine

/-- The register-port map (R30). -/
def portReg (idx : Fin 64) : PortReg :=
  if h : idx.val < 0x08 then .h ⟨idx.val, h⟩
  else if h : idx.val < 0x18 then .v ⟨idx.val - 0x08, by omega⟩
  else if h : idx.val < 0x28 then .m ⟨idx.val - 0x18, by omega⟩
  else if idx.val = 0x28 then .tLo
  else if idx.val = 0x29 then .tHi
  else if idx.val = 0x2A then .inAddr
  else if idx.val = 0x2B then .len
  else if idx.val = 0x2C then .cmd
  else if idx.val = 0x2D then .status
  else .reserved

/-- The index of CMD (R28). -/
def cmdIndex : Fin 64 := 0x2C

/-- STATUS.UNM <- 1 (R32). -/
def State.markUnm (s : State) : State := s.setStatus { s.status with unm := true }

/-- STATUS.WRB <- 1 (R226). -/
def State.markWrb (s : State) : State := s.setStatus { s.status with wrb := true }

/-- Issue of the word `w` while idle (R222): CMD captures it, DONE and ERR are cleared; a word that is no command, or
whose command raises an error, completes now with that error, NOP completes now, any other command goes in flight. -/
def issue (w : U64) (s : State) : Outcome :=
  match decode w with
  | .error e => .next ((s.capture w).raise e)
  | .ok i => if completesAtIssue i (s.capture w) then exec i (s.capture w) else .next (s.capture w).begin

/-- A write that BUSY drops (R220, R226): while busy only WRB is set. -/
def whenIdle (s : State) (o : Outcome) : Outcome := if s.status.busy then .next s.markWrb else o

/-- `HostRegWrite(idx, v)` (R220). -/
def hostRegWrite (idx : Fin 64) (v : U64) (s : State) : Outcome :=
  match portReg idx with
  | .reserved => .next s.markUnm
  | .status => .next (s.setStatus (s.status.writeOneClears v))
  | .cmd => whenIdle s (issue v s)
  | .h i => whenIdle s (.next (s.setH (s.h.set i v)))
  | .v i => whenIdle s (.next (s.setV (s.v.set i v)))
  | .m i => whenIdle s (.next (s.setM (s.m.set i v)))
  | .tLo => whenIdle s (.next (s.setT (joinHalves (high64 s.t) v)))
  | .tHi => whenIdle s (.next (s.setT (joinHalves v (low64 s.t))))
  | .inAddr => whenIdle s (.next (s.setInAddr v))
  | .len => whenIdle s (.next (s.setLen v))

/-- A read of H, V, M, T_LO or T_HI (R221): while busy it returns a free value, a new one each time (R227). -/
def State.readData (s : State) (x : U64) : State :=
  if s.status.busy then (s.setAnswer (.word (Config.busyRead s.draws))).setDraws (s.draws + 1)
  else s.setAnswer (.word x)

/-- `HostRegRead(idx)` (R221). -/
def hostRegRead (idx : Fin 64) (s : State) : Outcome :=
  match portReg idx with
  | .reserved => .next (s.markUnm.setAnswer (.word 0))
  | .status => .next (s.setAnswer (.word s.status.word))
  | .cmd => .next (s.setAnswer (.word s.cmd))
  | .inAddr => .next (s.setAnswer (.word s.inAddr))
  | .len => .next (s.setAnswer (.word s.len))
  | .h i => .next (s.readData s.h[i])
  | .v i => .next (s.readData s.v[i])
  | .m i => .next (s.readData s.m[i])
  | .tLo => .next (s.readData (low64 s.t))
  | .tHi => .next (s.readData (high64 s.t))

/-- How many bytes from IN_ADDR the command in CMD may read (R61, R293). -/
def readLength (s : State) : Nat :=
  match decode s.cmd with
  | .ok .loadm => 128
  | .ok (.compress _ _) => 128
  | .ok (.drive _ _ _) => s.len.toNat
  | .ok .nop => 0
  | .ok (.g _ _ _ _ _ _) => 0
  | .ok (.round _) => 0
  | .ok (.init _ _) => 0
  | .ok .fold => 0
  | .error _ => 0

/-- The address is in the read range of the command in flight (R73, R293). -/
def inReadRange (s : State) (a : Nat) : Bool := s.inAddr.toNat ≤ a && a < s.inAddr.toNat + readLength s

/-- `HostInWrite(a, v)` (R65, R228): stuck outside IN; HZ_IN_WRITE into the read range of a command in flight (R293). -/
def hostInWrite (a : Nat) (v : Byte) (s : State) : Outcome :=
  if a < s.params.inSize then
    if s.status.busy && inReadRange s a then .fault (.hzInWrite a)
    else .next (s.setMem (s.mem.write a v))
  else .fault (.inOutside a)

/-- `HostInRead(a)` (R65, R228). -/
def hostInRead (a : Nat) (s : State) : Outcome :=
  if a < s.params.inSize then .next (s.setAnswer (.byte (s.mem.read a))) else .fault (.inOutside a)

/-- One operation of the host. A write returns nothing. -/
def hostStep (op : HostOp) (s : State) : Outcome :=
  match op with
  | .regWrite idx v => hostRegWrite idx v (s.setAnswer .none)
  | .regRead idx => hostRegRead idx s
  | .inWrite a v => hostInWrite a v (s.setAnswer .none)
  | .inRead a => hostInRead a s

/-- The engine's turn (R223): enabled exactly when PEND = 1, it runs the command in CMD to completion; otherwise the
engine is idle and all state is kept (R252). A word in CMD that is no command is never in flight. -/
def engineStep (s : State) : Outcome :=
  if s.pend then
    match decode s.cmd with
    | .ok i => exec i s
    | .error e => .next (s.raise e)
  else .next s

/-- Reset (R280): every register takes its reset value (R37), a command in flight is abandoned, IN is not changed. The
hidden registers are unspecified. What the machine is built with and what the host does next are not state of the
engine. -/
def resetState (s : State) : State :=
  { State.reset with
    hidden := Hidden.free s.draws
    draws := s.draws + 1
    mem := s.mem
    params := s.params
    agenda := s.agenda }

/-- One event. -/
def eventStep (e : Event) (s : State) : Outcome :=
  match e with
  | .host op => hostStep op s
  | .engine => engineStep s
  | .reset => .next (resetState s)

/-- One step: the next event of the agenda happens. With no event left the engine takes its turn, so a command in flight
is eventually completed (R291), and an idle machine keeps its state (R252). -/
def nextEvent (s : State) : Outcome :=
  match s.agenda with
  | [] => engineStep s
  | e :: rest => eventStep e (s.setAgenda rest)

/-- The state in which the next step completes the command word `w` (log 7): the host's write of `w` to CMD comes next,
and if that issue only puts the command in flight, it has been done and the engine's turn comes next. -/
def placeCommand (w : U64) (s : State) : State :=
  let idle := (s.setStatus { s.status with busy := false }).setPend false
  match issue w idle with
  | .next s' => if s'.pend then s'.setAgenda (.engine :: s.agenda)
      else idle.setAgenda (.host (.regWrite cmdIndex w) :: s.agenda)
  | .fault _ => idle
  | .refused _ => idle

end Sys2Proof.Machine
end

