-- ==== Sys2Proof/Machine/Step.lean ====
section
/-! DEFINITION. One step of the machine, and where a step fetches its command. -/

namespace Sys2Proof.Machine

/-- One step (R20, R69, R223): `nextEvent` (Machine/Port.lean). -/
def step (s : State) : Host.Outcome State Fault Refusal := nextEvent s

/-- The state whose next step runs the command word `w` of `nbits` bits, every bit above them 0 (log 7). -/
def State.withFetchWord (s : State) (nbits w : Nat) : State := placeCommand (BitVec.ofNat 64 (w % 2 ^ nbits)) s

end Sys2Proof.Machine
end

