-- ==== Sys2Proof/Machine/HostProgram.lean ====
section
/-! DEFINITION. Host programs (R87): the host operations and the pseudo-operations of the spec's program syntax, as lists
of events. The number of polls a WAIT takes before the command completes is the open latency P_LATENCY (R291), so it
is an argument. -/

namespace Sys2Proof.Machine.HostProgram

/-- `WR reg, v`. -/
def wr (reg : Fin 64) (v : U64) : List Event := [.host (.regWrite reg v)]

/-- `RD reg`. -/
def rd (reg : Fin 64) : List Event := [.host (.regRead reg)]

/-- `INW a, b0 b1 ...`: b0 at a, b1 at a+1, and so on. Addresses are natural numbers and never wrap (R13), so the byte
that would lie past the end of IN is stuck (R65). -/
def inw (a : Nat) : List Byte → List Event
  | [] => []
  | b :: rest => .host (.inWrite a b) :: inw (a + 1) rest

/-- `ISSUE X`: `WR CMD, w` with w the word of X (R86). -/
def issueCmd (i : Instr) : List Event := wr cmdIndex (encode i)

/-- `WAIT`: STATUS is read until BUSY reads 0. The first `polls` reads come before the engine's completion. -/
def wait (polls : Nat) : List Event := (List.replicate polls (rd 0x2D)).flatten ++ .engine :: rd 0x2D

/-- `RUN X`: `ISSUE X` then `WAIT`. -/
def run (polls : Nat) (i : Instr) : List Event := issueCmd i ++ wait polls

/-- `ROUNDS`: `RUN ROUND 0` .. `RUN ROUND 11`. Each WAIT polls on its own (R291): `polls r` is that of round r. -/
def rounds (polls : Fin 12 → Nat) : List Event :=
  ((List.finRange 12).map fun r => run (polls r) (.round (r.castLE (by omega)))).flatten

/-- `SETT v`: `WR T_LO, v[63:0]` then `WR T_HI, v[127:64]`. -/
def sett (v : U128) : List Event := wr 0x28 (low64 v) ++ wr 0x29 (high64 v)

/-- `SETH h0, ..., h7`: `WR H0, h0` .. `WR H7, h7`. -/
def seth (h : Vector U64 8) : List Event :=
  ((List.finRange 8).map fun i => wr (i.castLE (by omega)) h[i]).flatten

/-- `CLRST`: `WR STATUS, 0x302`. -/
def clrst : List Event := wr 0x2D 0x302

end Sys2Proof.Machine.HostProgram
end

