-- ==== Sys2Proof/Safety.lean ====
section
/-! DEFINITION. What claims are stated in: the invariant of the machine, and the values the rules give a command's
result, written without the engine's hidden sequencing. -/

namespace Sys2Proof.Machine

/-- The invariant that every step keeps. -/
structure State.Inv (s : State) : Prop where
  /-- PEND equals STATUS.BUSY (R33). -/
  pend_eq_busy : s.pend = s.status.busy
  /-- While a command is in flight DONE and ERR are 0 (R222, R223). -/
  busy_clear : s.status.busy = true → s.status.done = false ∧ s.status.err = .ok
  /-- A command in flight is the one in CMD, and none of its errors applies (R222, R223). -/
  in_flight : s.pend = true → ∃ i, decode s.cmd = .ok i ∧ completesAtIssue i s = false
  /-- IN is in canonical form. -/
  mem_wf : s.mem.wf
  /-- IN has no byte at or above P_IN_SIZE (R60). -/
  mem_inside : ∀ c ∈ s.mem.cells, c.1 < s.params.inSize
  /-- P_IN_SIZE is at most 2^64 (R11). -/
  size_bound : s.params.inSize ≤ 2 ^ 64

/-- `n` steps, ending at the first fault. -/
def runSteps : Nat → State → Outcome
  | 0, s => .next s
  | n + 1, s =>
    match step s with
    | .next s' => runSteps n s'
    | .fault r => .fault r
    | .refused r => .refused r

/-- A run that meets neither HZ_IN_WRITE nor the stuck case (R295). -/
def SafeRun (n : Nat) (s : State) : Prop := ∃ t, runSteps n s = .next t

/-- Idle (R252): BUSY is 0 and no command is in flight. -/
def State.Idle (s : State) : Prop := s.status.busy = false ∧ s.pend = false

/-- A command is in flight (R222): BUSY and PEND are 1. -/
def State.InFlight (s : State) : Prop := s.status.busy = true ∧ s.pend = true

/-- `t` is what a command leaves of `s` when it completes without an error, the data registers H, V, M and T apart, which
each command's rule gives: STATUS and PEND as R223 says, and everything no command writes as before (R24 to R28, R60).
The hidden registers are unspecified (R33), so nothing is said of them. -/
structure Completed (s t : State) : Prop where
  status : t.status = { s.status with busy := false, done := true }
  pend : t.pend = false
  inAddr : t.inAddr = s.inAddr
  len : t.len = s.len
  cmd : t.cmd = s.cmd
  /-- Every byte of IN reads as before. -/
  bytes : ∀ a, t.mem.read a = s.mem.read a
  params : t.params = s.params
  agenda : t.agenda = s.agenda
  answer : t.answer = s.answer

/-- `s` after a command has raised the error `e` (R16, R242): STATUS and PEND, and nothing else. -/
def State.afterError (s : State) (e : ErrCode) : State :=
  { s with status := { s.status with busy := false, done := true, err := e }, pend := false }

/-- The mask of R83 for the opcodes 0x0..0x7. -/
def maskOf (op : Nat) : U64 :=
  match op with
  | 0 => 0xFFFFFFFFFFFFFFFF
  | 1 => 0xFFFFFFFFF000000F
  | 2 => 0xFFFFFFFFFFFFFF0F
  | 3 => 0xFFFFFFFFFFFFFFFF
  | 4 => 0xFFFFFFFFFFFFFFCF
  | 5 => 0xFFFFFFFFFFFFFFFF
  | 6 => 0xFFFFFFFFFFFFFFCF
  | _ => 0xFFFFFFFFFFFFF0CF

/-- `cmd[lo+3:lo]` as a number (R12). -/
def fieldNat (w : U64) (lo : Nat) : Nat := w.toNat / 2 ^ lo % 16

/-- The first error that applies to a command word (R241), read off the bits of the word and the registers. -/
def firstError (w : U64) (s : State) : ErrCode :=
  if fieldNat w 0 ≥ 8 then .illegalOpcode
  else if w &&& maskOf (fieldNat w 0) ≠ BitVec.ofNat 64 (fieldNat w 0) then .illegalField
  else if fieldNat w 0 = 1 ∧
      ¬ [fieldNat w 4, fieldNat w 8, fieldNat w 12, fieldNat w 16].Pairwise (fun x y => x ≠ y) then .illegalField
  else if fieldNat w 0 = 2 ∧ fieldNat w 4 > 11 then .illegalField
  else if fieldNat w 0 = 7 ∧ fieldNat w 8 = 0 then .illegalField
  else if (fieldNat w 0 = 3 ∨ fieldNat w 0 = 6) ∧ s.inAddr.toNat + 128 > s.params.inSize then .range
  else if fieldNat w 0 = 7 ∧ s.inAddr.toNat + s.len.toNat > s.params.inSize then .range
  else if fieldNat w 0 = 7 ∧ s.params.contractMode = .fault ∧ w.getLsbD 4 = false ∧
      (s.len.toNat = 0 ∨ s.len.toNat - finalOffset s.len.toNat (128 * fieldNat w 8) < 128) then .contract
  else .ok

/-- The read range of a command (R61, R293): how many bytes from IN_ADDR it may read. -/
def commandReads (i : Instr) (s : State) : Nat :=
  match i with
  | .loadm => 128
  | .compress _ _ => 128
  | .drive _ _ _ => s.len.toNat
  | .nop => 0
  | .g _ _ _ _ _ _ => 0
  | .round _ => 0
  | .init _ _ => 0
  | .fold => 0

/-- Four mixed words. -/
structure Mixed where
  a : U64
  b : U64
  c : U64
  d : U64
  deriving DecidableEq, Repr

/-- The eight statements of R110 on the words of four distinct slots. -/
def mixWords (a b c d x y : U64) : Mixed :=
  let a1 := a + b + x
  let d1 := rotr64 (d ^^^ a1) 32
  let c1 := c + d1
  let b1 := rotr64 (b ^^^ c1) 24
  let a2 := a1 + b1 + y
  let d2 := rotr64 (d1 ^^^ a2) 16
  let c2 := c1 + d2
  ⟨a2, rotr64 (b1 ^^^ c2) 63, c2, d2⟩

/-- The working vector after all the rounds 0..11 of R154 step 3, by the round function alone. -/
def allRounds (v m : Vector U64 16) : Vector U64 16 := (List.finRange 12).foldl (fun v r => roundFn v m r) v

/-- The chain value R154 gives: a function of H, T, the block and the flags only. -/
def compressedChain (h : Vector U64 8) (t : U128) (blk : Vector Byte 128) (f0 f1 : Bool) : Vector U64 8 :=
  foldVector h (allRounds (initVector h t f0 f1) (Vector.ofFn fun i => le64 blk i))

/-- The blocks DRIVE compresses (R188, R190), in order: each block's bytes, its counter delta and its two flags.
Interior blocks lie at the offsets 0, W, 2W, ... below FIN_OFF; the padded final block comes last. -/
def driveBlocks (mem : Memory) (base len : Nat) (fin ln : Bool) (w : Nat) :
    List (Vector Byte 128 × Nat × Bool × Bool) :=
  (List.range (finalOffset len w / w)).map (fun n => (mem.readBlock (base + n * w), 128, false, false))
    ++ [(paddedBlock mem (base + finalOffset len w) (tailLength len w), tailLength len w, fin, fin && ln)]

/-- Compressing one block of DRIVE (R188, R189): T advances first, then the block is compressed with it. -/
def chainBlock (ht : Vector U64 8 × U128) (b : Vector Byte 128 × Nat × Bool × Bool) : Vector U64 8 × U128 :=
  let t := ht.2 + BitVec.ofNat 128 b.2.1
  (compressedChain ht.1 t b.1 b.2.2.1 b.2.2.2, t)

/-- The chain value and the counter that DRIVE's rules give (R188, R189). -/
def drivenChain (h : Vector U64 8) (t : U128) (mem : Memory) (base len : Nat) (fin ln : Bool) (w : Nat) :
    Vector U64 8 × U128 :=
  (driveBlocks mem base len fin ln w).foldl chainBlock (h, t)

end Sys2Proof.Machine
end

