-- ==== Sys2Proof/Certificates/Slice0/Obligations.lean ====
section
/-! DEFINITION. The statements for the provers. -/

open Sys2Proof Sys2Proof.Machine

/-! ### Encoding -/

/-- R80, R86: decoding the assembled word of a command gives the command back, whatever its fields. That a word whose
field values break R83 (equal G slots, ROUND 12..15, k = 0) decodes at all, and is refused only at issue, is the model's
choice (log 9, DEDUCED). -/
def Obligations.DecodeOfEncodeIsTheCommand : Prop := ∀ i : Instr, decode (encode i) = .ok i

/-- R80, R86: a word that decodes to a command is that command's assembled word: no bit is dropped or ignored. -/
def Obligations.EncodeOfDecodeIsTheWord : Prop := ∀ (w : U64) (i : Instr), decode w = .ok i → encode i = w

/-- R86: the example words of the rule, and the words it gives NOP, LOADM and FOLD, decode to the commands they stand
for. -/
def Obligations.SpecExampleWordsDecode : Prop :=
  decode 0x0 = .ok .nop ∧ decode 0x010C8401 = .ok (.g 0 4 8 12 0 1) ∧ decode 0xB2 = .ok (.round 11) ∧
  decode 0x3 = .ok .loadm ∧ decode 0x14 = .ok (.init true false) ∧ decode 0x5 = .ok .fold ∧
  decode 0x36 = .ok (.compress true true) ∧ decode 0x117 = .ok (.drive true false 1) ∧
  decode 0x107 = .ok (.drive false false 1) ∧ decode 0x437 = .ok (.drive true true 4)

/-- R84: every word decodes to a command that meets the constraints of R83, or a host that issues it is refused with
ILLEGAL_OPCODE or ILLEGAL_FIELD, and then only CMD and STATUS change. -/
def Obligations.EveryWordDecodesOrIsRefused : Prop :=
  ∀ w : U64, (∃ i, decode w = .ok i ∧ i.wellFormed = true) ∨
    ∃ e, (e = .illegalOpcode ∨ e = .illegalField) ∧ ∀ s : State, s.Idle →
      hostRegWrite cmdIndex w s = .next { s with cmd := w, status := { s.status with done := true, err := e } }

/-! ### Issue, completion, errors -/

/-- R222, R241: a host write to CMD while idle captures the word, clears DONE and ERR, and then reports the first error
that applies, or completes NOP, or puts the command in flight. WRB and UNM, and every other register, stay. -/
def Obligations.IssueReportsTheFirstError : Prop :=
  ∀ (w : U64) (s : State), s.Idle →
    hostRegWrite cmdIndex w s =
      if firstError w s ≠ .ok then
        .next { s with cmd := w, status := { s.status with done := true, err := firstError w s } }
      else if fieldNat w 0 = 0 then
        .next { s with cmd := w, status := { s.status with done := true, err := .ok } }
      else
        .next { s with cmd := w, status := { s.status with busy := true, done := false, err := .ok }, pend := true }

/-- R222, R223: a step whose turn is the engine's runs the command in CMD; a step whose event is an accepted write to
CMD runs the written command at once if it completes at issue, and otherwise only puts it in flight. The agenda is the
model's own field (log 3). -/
def Obligations.StepRunsTheDecodedCommand : Prop :=
  (∀ (s : State) (i : Instr), s.pend = true → decode s.cmd = .ok i → s.agenda = [] → step s = exec i s) ∧
  (∀ (s : State) (i : Instr) (rest : List Event), s.pend = true → decode s.cmd = .ok i →
    s.agenda = .engine :: rest → step s = exec i { s with agenda := rest }) ∧
  (∀ (s : State) (w : U64) (i : Instr) (rest : List Event), s.status.busy = false → decode w = .ok i →
    s.agenda = .host (.regWrite cmdIndex w) :: rest →
    step s =
      let s1 := { s with agenda := rest, answer := .none, cmd := w, status := { s.status with done := false, err := .ok } }
      if completesAtIssue i s1 = true then exec i s1
      else .next { s1 with status := { s1.status with busy := true }, pend := true })

/-- The model's own entry point (log 7): the step after `withFetchWord` runs exactly the command of the word, in a state
with the same data registers, IN and parameters. -/
def Obligations.FetchWordRunsThatCommand : Prop :=
  ∀ (s : State) (w : Nat) (i : Instr), decode (BitVec.ofNat 64 (w % 2 ^ 64)) = .ok i →
    ∃ s0, step (s.withFetchWord 64 w) = exec i s0 ∧ s0.h = s.h ∧ s0.v = s.v ∧ s0.m = s.m ∧ s0.t = s.t ∧
      s0.inAddr = s.inAddr ∧ s0.len = s.len ∧ s0.mem = s.mem ∧ s0.params = s.params ∧
      s0.cmd = BitVec.ofNat 64 (w % 2 ^ 64)

/-- R16, R223: whatever the state, a command answers a next state, with BUSY 0, DONE 1 and nothing in flight. -/
def Obligations.EveryCommandEnds : Prop :=
  ∀ (i : Instr) (s : State), ∃ t, exec i s = .next t ∧ t.status.busy = false ∧ t.status.done = true ∧ t.pend = false

/-- R240, R242: each command's `raise` lines, in order, and that an error changes STATUS (and PEND) only. -/
def Obligations.CommandsRaiseTheirErrors : Prop :=
  (∀ (a b c d mx my : Fin 16) (s : State), slotsDistinct a b c d = false →
    exec (.g a b c d mx my) s = .next (s.afterError .illegalField)) ∧
  (∀ (r : Fin 16) (s : State), r.val > 11 → exec (.round r) s = .next (s.afterError .illegalField)) ∧
  (∀ s : State, s.inAddr.toNat + 128 > s.params.inSize → exec .loadm s = .next (s.afterError .range)) ∧
  (∀ (f0 f1 : Bool) (s : State), s.inAddr.toNat + 128 > s.params.inSize →
    exec (.compress f0 f1) s = .next (s.afterError .range)) ∧
  (∀ (fin ln : Bool) (s : State), exec (.drive fin ln 0) s = .next (s.afterError .illegalField)) ∧
  (∀ (fin ln : Bool) (k : Fin 16) (s : State), k ≠ 0 → s.inAddr.toNat + s.len.toNat > s.params.inSize →
    exec (.drive fin ln k) s = .next (s.afterError .range)) ∧
  (∀ (ln : Bool) (k : Fin 16) (s : State), k ≠ 0 → s.inAddr.toNat + s.len.toNat ≤ s.params.inSize →
    s.params.contractMode = .fault →
    (s.len.toNat = 0 ∨ s.len.toNat - finalOffset s.len.toNat (128 * k.val) < 128) →
    exec (.drive false ln k) s = .next (s.afterError .contract))

/-- R21 to R28, R60: which commands write which registers. No command writes IN_ADDR, LEN, CMD or a byte of IN, and none
sets or clears WRB or UNM (R243). Only FOLD, COMPRESS and DRIVE write H; only G, ROUND, INIT, COMPRESS and DRIVE write V;
only LOADM, COMPRESS and DRIVE write M; only DRIVE writes T. -/
def Obligations.OnlyTheseCommandsWrite : Prop :=
  ∀ (i : Instr) (s t : State), exec i s = .next t →
    t.inAddr = s.inAddr ∧ t.len = s.len ∧ t.cmd = s.cmd ∧ (∀ a, t.mem.read a = s.mem.read a) ∧
    t.status.wrb = s.status.wrb ∧ t.status.unm = s.status.unm ∧ t.params = s.params ∧ t.agenda = s.agenda ∧
    t.answer = s.answer ∧
    (t.h ≠ s.h → i = .fold ∨ (∃ f0 f1, i = .compress f0 f1) ∨ ∃ fin ln k, i = .drive fin ln k) ∧
    (t.v ≠ s.v → (∃ a b c d mx my, i = .g a b c d mx my) ∨ (∃ r, i = .round r) ∨ (∃ f0 f1, i = .init f0 f1) ∨
      (∃ f0 f1, i = .compress f0 f1) ∨ ∃ fin ln k, i = .drive fin ln k) ∧
    (t.m ≠ s.m → i = .loadm ∨ (∃ f0 f1, i = .compress f0 f1) ∨ ∃ fin ln k, i = .drive fin ln k) ∧
    (t.t ≠ s.t → ∃ fin ln k, i = .drive fin ln k)

/-! ### The commands -/

/-- R224: NOP completes at issue and changes nothing but CMD, DONE and ERR, and every other word with opcode 0x0 is
ILLEGAL_FIELD; executed, it does nothing but complete. That it leaves the hidden
registers alone, whose values R33 calls unspecified, is the model's choice (log 5). -/
def Obligations.NopOnlyCompletes : Prop :=
  (∀ s : State, ∃ t, exec .nop s = .next t ∧ Completed s t ∧ t.h = s.h ∧ t.v = s.v ∧ t.m = s.m ∧ t.t = s.t ∧
    t.hidden = s.hidden) ∧
  (∀ s : State, s.Idle →
    hostRegWrite cmdIndex 0 s = .next { s with cmd := 0, status := { s.status with done := true, err := .ok } }) ∧
  (∀ (w : U64) (s : State), s.Idle → fieldNat w 0 = 0 → w ≠ 0 →
    hostRegWrite cmdIndex w s = .next { s with cmd := w, status := { s.status with done := true, err := .illegalField } })

/-- R110, R111: G on four distinct slots writes the mixed words into them and nothing else. -/
def Obligations.GMixesFourSlots : Prop :=
  ∀ (a b c d mx my : Fin 16) (s : State), slotsDistinct a b c d = true →
    ∃ t, exec (.g a b c d mx my) s = .next t ∧ Completed s t ∧ t.h = s.h ∧ t.m = s.m ∧ t.t = s.t ∧
      t.v[a] = (mixWords s.v[a] s.v[b] s.v[c] s.v[d] s.m[mx] s.m[my]).a ∧
      t.v[b] = (mixWords s.v[a] s.v[b] s.v[c] s.v[d] s.m[mx] s.m[my]).b ∧
      t.v[c] = (mixWords s.v[a] s.v[b] s.v[c] s.v[d] s.m[mx] s.m[my]).c ∧
      t.v[d] = (mixWords s.v[a] s.v[b] s.v[c] s.v[d] s.m[mx] s.m[my]).d ∧
      ∀ i : Fin 16, i ≠ a → i ≠ b → i ≠ c → i ≠ d → t.v[i] = s.v[i]

/-- R130 to R133: ROUND r applies the eight G steps, columns and then diagonals, with the message words of row r of
SIGMA, and writes V only. -/
def Obligations.RoundAppliesEightSteps : Prop :=
  ∀ (r : Fin 16) (hr : r.val < 12) (s : State),
    ∃ t, exec (.round r) s = .next t ∧ Completed s t ∧ t.h = s.h ∧ t.m = s.m ∧ t.t = s.t ∧
      t.v =
        let x := fun j : Fin 16 => s.m[sigma[r.val][j]]
        let v1 := gfun s.v 0 4 8 12 (x 0) (x 1)
        let v2 := gfun v1 1 5 9 13 (x 2) (x 3)
        let v3 := gfun v2 2 6 10 14 (x 4) (x 5)
        let v4 := gfun v3 3 7 11 15 (x 6) (x 7)
        let v5 := gfun v4 0 5 10 15 (x 8) (x 9)
        let v6 := gfun v5 1 6 11 12 (x 10) (x 11)
        let v7 := gfun v6 2 7 8 13 (x 12) (x 13)
        gfun v7 3 4 9 14 (x 14) (x 15)

/-- R62, R150: LOADM parses the 128 bytes at IN_ADDR into M, little-endian, at any alignment, and writes M only. -/
def Obligations.LoadmParsesTheBlock : Prop :=
  ∀ s : State, s.inAddr.toNat + 128 ≤ s.params.inSize →
    ∃ t, exec .loadm s = .next t ∧ Completed s t ∧ t.h = s.h ∧ t.v = s.v ∧ t.t = s.t ∧
      ∀ (i : Fin 16) (j : Fin 8), t.m[i].extractLsb' (8 * j.val) 8 = s.mem.read (s.inAddr.toNat + 8 * i.val + j.val)

/-- R151: INIT builds the working vector from H, IV, T and the two flags, and writes V only. -/
def Obligations.InitBuildsTheWorkingVector : Prop :=
  ∀ (f0 f1 : Bool) (s : State),
    ∃ t, exec (.init f0 f1) s = .next t ∧ Completed s t ∧ t.h = s.h ∧ t.m = s.m ∧ t.t = s.t ∧
      (∀ i : Fin 8, t.v[i.val] = s.h[i]) ∧ (∀ i : Fin 4, t.v[8 + i.val] = iv[i.val]) ∧
      t.v[12] = iv[4] ^^^ BitVec.ofNat 64 (s.t.toNat % 2 ^ 64) ∧ t.v[13] = iv[5] ^^^ BitVec.ofNat 64 (s.t.toNat / 2 ^ 64) ∧
      t.v[14] = (if f0 then ~~~ iv[6] else iv[6]) ∧ t.v[15] = (if f1 then ~~~ iv[7] else iv[7])

/-- R152, R157: FOLD XORs both halves of V into H, and writes H only. -/
def Obligations.FoldXorsBothHalves : Prop :=
  ∀ s : State, ∃ t, exec .fold s = .next t ∧ Completed s t ∧ t.v = s.v ∧ t.m = s.m ∧ t.t = s.t ∧
    ∀ i : Fin 8, t.h[i] = s.h[i] ^^^ s.v[i.val] ^^^ s.v[i.val + 8]

/-- R152: two FOLDs with no command in between restore H. -/
def Obligations.FoldTwiceRestoresTheChain : Prop :=
  ∀ s : State, ∃ t u, exec .fold s = .next t ∧ exec .fold t = .next u ∧ u.h = s.h ∧ u.v = s.v

/-- R153, R154: COMPRESS leaves in H the value of R154 for the 128 bytes at IN_ADDR, in M the parsed block and in V the
working vector after round 11; T is read and not changed. -/
def Obligations.CompressComputesTheChainValue : Prop :=
  ∀ (f0 f1 : Bool) (s : State), s.inAddr.toNat + 128 ≤ s.params.inSize →
    ∃ t, exec (.compress f0 f1) s = .next t ∧ Completed s t ∧ t.t = s.t ∧
      (∀ (i : Fin 16) (j : Fin 8),
        t.m[i].extractLsb' (8 * j.val) 8 = s.mem.read (s.inAddr.toNat + 8 * i.val + j.val)) ∧
      t.v = allRounds (initVector s.h s.t f0 f1) t.m ∧
      ∀ i : Fin 8, t.h[i] = s.h[i] ^^^ t.v[i.val] ^^^ t.v[i.val + 8]

/-- R154: the result of COMPRESS depends only on H, T, the block and the flags, not on the V and M it starts from. -/
def Obligations.CompressIgnoresOldVAndM : Prop :=
  ∀ (f0 f1 : Bool) (s s' t t' : State), s.h = s'.h → s.t = s'.t →
    s.inAddr.toNat + 128 ≤ s.params.inSize → s'.inAddr.toNat + 128 ≤ s'.params.inSize →
    (∀ j : Fin 128, s.mem.read (s.inAddr.toNat + j.val) = s'.mem.read (s'.inAddr.toNat + j.val)) →
    exec (.compress f0 f1) s = .next t → exec (.compress f0 f1) s' = .next t' →
    t.h = t'.h ∧ t.v = t'.v ∧ t.m = t'.m

/-- R155: LOADM, INIT, ROUND 0 .. ROUND 11 and FOLD, issued as 15 commands with a WAIT after each, leave H, V and M exactly
as COMPRESS does. Each WAIT takes its own number of polls. The agenda (log 3) and the form of WAIT (log 15) are the
model's own. -/
def Obligations.StagesComposeToCompress : Prop :=
  ∀ (f0 f1 : Bool) (pl pi pf q : Nat) (pr : Fin 12 → Nat) (s : State), s.Idle →
    s.inAddr.toNat + 128 ≤ s.params.inSize →
    let stages := HostProgram.run pl .loadm ++ HostProgram.run pi (.init f0 f1) ++ HostProgram.rounds pr
      ++ HostProgram.run pf .fold
    let whole := HostProgram.run q (.compress f0 f1)
    ∃ t u, runSteps stages.length { s with agenda := stages } = .next t ∧
      runSteps whole.length { s with agenda := whole } = .next u ∧
      t.h = u.h ∧ t.v = u.v ∧ t.m = u.m ∧ t.t = s.t ∧ u.t = s.t ∧ t.Idle ∧ u.Idle

/-- R183: FIN_OFF is the greatest multiple of W not above max(LEN - 1, 0). -/
def Obligations.FinalOffsetIsGreatestMultiple : Prop :=
  ∀ len w : Nat, 0 < w →
    w ∣ finalOffset len w ∧ finalOffset len w ≤ len - 1 ∧ len - 1 < finalOffset len w + w ∧
    (∀ n, w ∣ n → n ≤ len - 1 → n ≤ finalOffset len w) ∧
    (1 ≤ len → finalOffset len w < len ∧ len ≤ finalOffset len w + w)

/-- R184: FIN_LEN is 0 on empty input and otherwise the rest of the input from FIN_OFF, capped at 128; for k = 1 the cap
never binds. -/
def Obligations.TailLengthIsCapped : Prop :=
  (∀ w, tailLength 0 w = 0) ∧
  (∀ len w, 1 ≤ len → tailLength len w = min (len - finalOffset len w) 128) ∧
  (∀ len, 1 ≤ len → 1 ≤ len - finalOffset len 128 ∧ len - finalOffset len 128 ≤ 128 ∧
    tailLength len 128 = len - finalOffset len 128)

/-- R180, R185, R186, R188, R190, R192, R193: a DRIVE whose checks pass compresses the blocks of R188 in order. H and T are
the chain value and the counter after the last one, M is the parse of the padded final block, V the working vector after
its round 11, begun from the chain value that the blocks before it left, and H folds V into that value; IN_ADDR, LEN and IN
are unchanged. -/
def Obligations.DriveFoldsItsBlocks : Prop :=
  ∀ (fin ln : Bool) (k : Fin 16) (s : State), k ≠ 0 → s.inAddr.toNat + s.len.toNat ≤ s.params.inSize →
    (fin = true ∨ s.params.contractMode = .compute ∨ 128 ≤ s.len.toNat - finalOffset s.len.toNat (128 * k.val)) →
    ∃ t, exec (.drive fin ln k) s = .next t ∧ Completed s t ∧
      (t.h, t.t) = drivenChain s.h s.t s.mem s.inAddr.toNat s.len.toNat fin ln (128 * k.val) ∧
      (∀ i : Fin 16, t.m[i] = le64 (paddedBlock s.mem (s.inAddr.toNat + finalOffset s.len.toNat (128 * k.val))
        (tailLength s.len.toNat (128 * k.val))) i) ∧
      let before := ((driveBlocks s.mem s.inAddr.toNat s.len.toNat fin ln (128 * k.val)).dropLast.foldl chainBlock
        (s.h, s.t)).1
      t.v = allRounds (initVector before t.t fin (fin && ln)) t.m ∧
        ∀ i : Fin 8, t.h[i] = before[i] ^^^ t.v[i.val] ^^^ t.v[i.val + 8]

/-- R189: a DRIVE whose checks pass adds 128 * FIN_OFF / W + FIN_LEN to T, modulo 2^128. -/
def Obligations.DriveAdvancesTheCounter : Prop :=
  ∀ (fin ln : Bool) (k : Fin 16) (s : State), k ≠ 0 → s.inAddr.toNat + s.len.toNat ≤ s.params.inSize →
    (fin = true ∨ s.params.contractMode = .compute ∨ 128 ≤ s.len.toNat - finalOffset s.len.toNat (128 * k.val)) →
    ∃ t, exec (.drive fin ln k) s = .next t ∧
      t.t.toNat = (s.t.toNat + (128 * (finalOffset s.len.toNat (128 * k.val) / (128 * k.val))
        + tailLength s.len.toNat (128 * k.val))) % 2 ^ 128

/-- R190: on empty input a DRIVE with fin = 1 compresses exactly one all-zero block, with the last-block mask, and T does
not move. -/
def Obligations.DriveOfNothingCompressesOneBlock : Prop :=
  ∀ (ln : Bool) (k : Fin 16) (s : State), k ≠ 0 → s.len = 0 → s.inAddr.toNat ≤ s.params.inSize →
    ∃ t, exec (.drive true ln k) s = .next t ∧ t.t = s.t ∧ t.m = Vector.replicate 16 0 ∧
      t.h = compressedChain s.h s.t (Vector.replicate 128 0) true ln

/-- R186: with fin = 0 the last-node request is ignored. -/
def Obligations.DriveIgnoresLastNodeUnlessFinal : Prop :=
  ∀ (k : Fin 16) (s : State), exec (.drive false true k) s = exec (.drive false false k) s

/-- R190, R191: the block loop ends by itself after N = FIN_OFF / W + 1 turns; allowing more turns changes nothing. -/
def Obligations.DriveLoopEndsByItself : Prop :=
  ∀ (fin ln : Bool) (k : Fin 16) (s : State) (n : Nat), k ≠ 0 →
    finalOffset s.len.toNat (128 * k.val) / (128 * k.val) + 1 ≤ n →
    driveLoop n (128 * k.val) (driveSetup fin ln (128 * k.val) s) = driveBody fin ln k s

/-- R195: a first DRIVE with fin = 0 over L1 bytes (a positive multiple of 128) and a second with fin = 1 over the next
L2 >= 1 bytes leave H and T as one DRIVE with fin = 1 over L1 + L2 bytes does. -/
def Obligations.DriveIsIncremental : Prop :=
  ∀ (ln ln' : Bool) (L1 L2 : Nat) (s : State), 0 < L1 → 128 ∣ L1 → 0 < L2 → L1 + L2 < 2 ^ 64 →
    s.inAddr.toNat + (L1 + L2) ≤ s.params.inSize → s.params.inSize ≤ 2 ^ 64 →
    ∃ t u w, exec (.drive false ln' 1) { s with len := BitVec.ofNat 64 L1 } = .next t ∧
      exec (.drive true ln 1) { t with inAddr := s.inAddr + BitVec.ofNat 64 L1, len := BitVec.ofNat 64 L2 } = .next u ∧
      exec (.drive true ln 1) { s with len := BitVec.ofNat 64 (L1 + L2) } = .next w ∧ u.h = w.h ∧ u.t = w.t

/-! ### Laws of the mixer and the dispatcher -/

/-- R13, R114: the four rotations of the mixer are rotations, and rotation right by 63 is rotation left by 1. -/
def Obligations.RotationsAreRotations : Prop :=
  ∀ v : U64, rotr64 v 32 = v.rotateRight 32 ∧ rotr64 v 24 = v.rotateRight 24 ∧ rotr64 v 16 = v.rotateRight 16 ∧
    rotr64 v 63 = v.rotateRight 63 ∧ rotr64 v 63 = (v <<< 1) ||| (v >>> 63)

/-- R115 (which the spec derives from R110): zero slots and zero words stay zero, and Gfun with fixed message words is a bijection of its four slots. -/
def Obligations.GfunZeroFixedAndBijective : Prop :=
  (∀ (v : Vector U64 16) (a b c d : Fin 16), v[a] = 0 → v[b] = 0 → v[c] = 0 → v[d] = 0 → gfun v a b c d 0 0 = v) ∧
  (∀ (a b c d : Fin 16) (x y : U64), slotsDistinct a b c d = true →
    Function.Bijective (fun v : Vector U64 16 => gfun v a b c d x y))

/-- R116: two applications of Gfun whose slot sets are disjoint commute. -/
def Obligations.DisjointGfunsCommute : Prop :=
  ∀ (v : Vector U64 16) (a b c d a' b' c' d' : Fin 16) (x y x' y' : U64),
    (∀ i ∈ [a, b, c, d], ∀ j ∈ [a', b', c', d'], i ≠ j) →
    gfun (gfun v a b c d x y) a' b' c' d' x' y' = gfun (gfun v a' b' c' d' x' y') a b c d x y

/-- R134: the four column steps of a round, and the four diagonal steps, give the same result in any order. -/
def Obligations.HalfRoundStepsInAnyOrder : Prop :=
  ∀ (v m : Vector U64 16) (r : Fin 12) (p : List (Fin 8)),
    (p.Perm [0, 1, 2, 3] → p.foldl (roundStep m r) v = [0, 1, 2, 3].foldl (roundStep m r) v) ∧
    (p.Perm [4, 5, 6, 7] → p.foldl (roundStep m r) v = [4, 5, 6, 7].foldl (roundStep m r) v)

/-- 41_round.md section 3: rounds 10 and 11 compute what rounds 0 and 1 compute. This rests on the SIGMA values, which
the spec supplies from general knowledge (log 10), so it is no rule's own claim about the source. -/
def Obligations.LastTwoRoundsRepeatTheFirst : Prop :=
  ∀ v m : Vector U64 16, roundFn v m 10 = roundFn v m 0 ∧ roundFn v m 11 = roundFn v m 1

/-- R137: each row of SIGMA is a permutation of 0..15, so a round consumes every message word exactly once. It is a check
of the values the model took from the spec (log 10). -/
def Obligations.SigmaRowsArePermutations : Prop :=
  ∀ (r : Fin 12) (j : Fin 16), ∃ p : Fin 16, sigma[r][p] = j ∧ ∀ q : Fin 16, sigma[r][q] = j → q = p

/-- R136: the hidden counters take the 96 values from (0, 0) to (11, 7) in lexicographic order, and the 96 G steps are
the rounds 0 .. 11 in order. -/
def Obligations.HiddenCountersRunTheRounds : Prop :=
  (∀ (s : State) (n : Nat), n < 96 →
    (gSteps n { s with hidden := { s.hidden with rc := 0, sc := 0 } }).hidden.rc.val = n / 8 ∧
    (gSteps n { s with hidden := { s.hidden with rc := 0, sc := 0 } }).hidden.sc.val = n % 8) ∧
  (∀ s : State, (roundsStage s).v = allRounds s.v s.m)

/-! ### The register port -/

/-- R220: the write map of the register port, case by case. -/
def Obligations.RegisterWriteMap : Prop :=
  ∀ (idx : Fin 64) (v : U64) (s : State),
    hostRegWrite idx v s =
      if 0x2E ≤ idx.val then .next { s with status := { s.status with unm := true } }
      else if idx.val = 0x2D then .next { s with status := { s.status with
        done := if v.getLsbD 1 then false else s.status.done
        wrb := if v.getLsbD 8 then false else s.status.wrb
        unm := if v.getLsbD 9 then false else s.status.unm } }
      else if s.status.busy = true then .next { s with status := { s.status with wrb := true } }
      else if idx.val = 0x2C then issue v s
      else if idx.val ≤ 0x07 then .next { s with h := s.h.setIfInBounds idx.val v }
      else if idx.val ≤ 0x17 then .next { s with v := s.v.setIfInBounds (idx.val - 0x08) v }
      else if idx.val ≤ 0x27 then .next { s with m := s.m.setIfInBounds (idx.val - 0x18) v }
      else if idx.val = 0x28 then .next { s with t := s.t.extractLsb' 64 64 ++ v }
      else if idx.val = 0x29 then .next { s with t := v ++ s.t.extractLsb' 0 64 }
      else if idx.val = 0x2A then .next { s with inAddr := v }
      else .next { s with len := v }

/-- R221, R227: the read map of the register port, case by case. A read of H, V, M or T while busy returns some word, no
matter which. That the word is kept in `answer` (log 6) and that a read while busy advances `draws` (log 4) is the
model's choice. -/
def Obligations.RegisterReadMap : Prop :=
  ∀ (idx : Fin 64) (s : State),
    if 0x2E ≤ idx.val then
      hostRegRead idx s = .next { s with status := { s.status with unm := true }, answer := .word 0 }
    else if idx.val = 0x2D then hostRegRead idx s = .next { s with answer := .word s.status.word }
    else if idx.val = 0x2C then hostRegRead idx s = .next { s with answer := .word s.cmd }
    else if idx.val = 0x2A then hostRegRead idx s = .next { s with answer := .word s.inAddr }
    else if idx.val = 0x2B then hostRegRead idx s = .next { s with answer := .word s.len }
    else if s.status.busy = true then
      ∃ x : U64, hostRegRead idx s = .next { s with answer := .word x, draws := s.draws + 1 }
    else if idx.val ≤ 0x07 then hostRegRead idx s = .next { s with answer := .word (s.h[idx.val]?.getD 0) }
    else if idx.val ≤ 0x17 then hostRegRead idx s = .next { s with answer := .word (s.v[idx.val - 0x08]?.getD 0) }
    else if idx.val ≤ 0x27 then hostRegRead idx s = .next { s with answer := .word (s.m[idx.val - 0x18]?.getD 0) }
    else if idx.val = 0x28 then hostRegRead idx s = .next { s with answer := .word (s.t.extractLsb' 0 64) }
    else hostRegRead idx s = .next { s with answer := .word (s.t.extractLsb' 64 64) }

/-- R31: H, V, M, T_LO, T_HI, IN_ADDR and LEN are plain storage: while idle, a read of an index returns what was written
to it, and every other index still reads as it did. -/
def Obligations.RegistersReadBackWhatWasWritten : Prop :=
  ∀ (idx other : Fin 64) (v x : U64) (s r : State), s.status.busy = false → idx.val < 0x2C →
    other ≠ idx → hostRegRead other s = .next r → r.answer = .word x →
    ∃ t u w, hostRegWrite idx v s = .next t ∧ hostRegRead idx t = .next u ∧ u.answer = .word v ∧
      hostRegRead other t = .next w ∧ w.answer = .word x

/-- R24: a write of T_LO replaces bits 63:0 of T and keeps bits 127:64; a write of T_HI replaces bits 127:64 and keeps
bits 63:0. -/
def Obligations.CounterHalvesAreWrittenApart : Prop :=
  ∀ (v : U64) (s : State), s.status.busy = false →
    (∃ t, hostRegWrite 0x28 v s = .next t ∧ t.t.toNat = s.t.toNat / 2 ^ 64 * 2 ^ 64 + v.toNat) ∧
    (∃ t, hostRegWrite 0x29 v s = .next t ∧ t.t.toNat = v.toNat * 2 ^ 64 + s.t.toNat % 2 ^ 64)

/-- R32: a reserved index holds no state. A read returns 0 and sets UNM, a write sets UNM and changes nothing else, idle
or busy. The returned word stands in the model's own field `answer` (log 6). -/
def Obligations.ReservedIndicesOnlySetUnm : Prop :=
  ∀ (idx : Fin 64) (v : U64) (s : State), 0x2E ≤ idx.val →
    hostRegWrite idx v s = .next { s with status := { s.status with unm := true } } ∧
    hostRegRead idx s = .next { s with status := { s.status with unm := true }, answer := .word 0 }

/-- R226: while busy a write to any index in 0x00..0x2C changes nothing but WRB, which it sets. -/
def Obligations.WritesWhileBusyAreDropped : Prop :=
  ∀ (idx : Fin 64) (v : U64) (s : State), s.status.busy = true → idx.val ≤ 0x2C →
    hostRegWrite idx v s = .next { s with status := { s.status with wrb := true } }

/-- R29: the layout of the STATUS word, bit by bit. ERR takes only the values 0..4. -/
def Obligations.StatusWordLayout : Prop :=
  ∀ x : Status, x.word.getLsbD 0 = x.busy ∧ x.word.getLsbD 1 = x.done ∧
    x.word.toNat / 16 % 16 = errNumber x.err ∧ errNumber x.err ≤ 4 ∧
    x.word.getLsbD 8 = x.wrb ∧ x.word.getLsbD 9 = x.unm ∧
    ∀ i, (i = 2 ∨ i = 3 ∨ 10 ≤ i) → x.word.getLsbD i = false

/-- R225: a write to STATUS clears DONE, WRB and UNM where the written bit is 1, and changes nothing else, idle or busy. -/
def Obligations.StatusWriteClearsOnes : Prop :=
  ∀ (v : U64) (s : State), hostRegWrite 0x2D v s = .next { s with status :=
    { busy := s.status.busy, done := if v.getLsbD 1 then false else s.status.done, err := s.status.err,
      wrb := if v.getLsbD 8 then false else s.status.wrb, unm := if v.getLsbD 9 then false else s.status.unm } }

/-! ### The IN byte space, hazards and latency -/

/-- R65: a host write inside IN, with no command in flight, changes that byte and no other; a host read returns the byte;
an access outside IN is stuck. -/
def Obligations.HostInAccess : Prop :=
  ∀ (a : Nat) (v : Byte) (s : State),
    (a < s.params.inSize → s.status.busy = false → s.mem.wf →
      ∃ t, hostInWrite a v s = .next t ∧ t = { s with mem := t.mem } ∧ t.mem.wf ∧
        ∀ b, t.mem.read b = if b = a then v else s.mem.read b) ∧
    (a < s.params.inSize → hostInRead a s = .next { s with answer := .byte (s.mem.read a) }) ∧
    (s.params.inSize ≤ a → hostInWrite a v s = .fault (.inOutside a) ∧ hostInRead a s = .fault (.inOutside a))

/-- R293: while BUSY = 1 a host write into the read range of the command in flight is HZ_IN_WRITE, and a write to any
other byte of IN is done. The range has 128 bytes for LOADM and COMPRESS, LEN for DRIVE and none for any other command. -/
def Obligations.WriteIntoReadRangeIsAHazard : Prop :=
  ∀ (a : Nat) (v : Byte) (i : Instr) (s : State), s.status.busy = true → decode s.cmd = .ok i →
    a < s.params.inSize →
    hostInWrite a v s =
      if s.inAddr.toNat ≤ a ∧ a < s.inAddr.toNat + commandReads i s then .fault (.hzInWrite a)
      else .next { s with mem := s.mem.write a v }

/-- R223, R73, R228: no host operation between issue and completion can change the result. If the operation is no
hazard, the command completes after it with the H, V, M and T it would have left before it. -/
def Obligations.HostCannotDisturbACommand : Prop :=
  ∀ (i : Instr) (op : HostOp) (s s' t t' : State), s.InFlight → decode s.cmd = .ok i → issueError i s = none →
    s.mem.wf → hostStep op s = .next s' → exec i s = .next t → exec i s' = .next t' →
    s'.InFlight ∧ s'.cmd = s.cmd ∧ issueError i s' = none ∧
    t.h = t'.h ∧ t.v = t'.v ∧ t.m = t'.m ∧ t.t = t'.t ∧ t.status.err = t'.status.err

/-- R290, R291: `RUN X` ends, whatever the latency: after the write to CMD, any number of polls, the completion and one
more read of STATUS, the engine is idle, the last read shows BUSY = 0, and H, V, M and T are what the command leaves. -/
def Obligations.RunEndsAtAnyLatency : Prop :=
  ∀ (i : Instr) (polls : Nat) (s t : State), s.Idle → exec i s = .next t →
    ∃ u, runSteps (HostProgram.run polls i).length { s with agenda := HostProgram.run polls i } = .next u ∧
      u.Idle ∧ u.agenda = [] ∧ u.answer = .word u.status.word ∧ u.status.done = true ∧ u.cmd = encode i ∧
      u.h = t.h ∧ u.v = t.v ∧ u.m = t.m ∧ u.t = t.t

/-- The model's canonical form of IN (log 2): two contents of IN that read alike at every address are equal data. -/
def Obligations.CanonicalMemoriesReadingAlikeAreEqual : Prop :=
  ∀ m m' : Memory, m.wf → m'.wf → (∀ a, m.read a = m'.read a) → m = m'

/-! ### Reset, idling and the invariant -/

/-- R37: the reset values the spec gives. -/
def Obligations.ResetValues : Prop :=
  State.reset.h = Vector.replicate 8 0 ∧ State.reset.v = Vector.replicate 16 0 ∧
  State.reset.m = Vector.replicate 16 0 ∧ State.reset.t = 0 ∧ State.reset.inAddr = 0 ∧ State.reset.len = 0 ∧
  State.reset.cmd = 0 ∧ State.reset.status.word = 0 ∧ State.reset.pend = false

/-- R280: reset gives every register its reset value, abandons a command in flight and leaves IN as it is. -/
def Obligations.ResetAbandonsTheCommand : Prop :=
  ∀ (s : State) (rest : List Event), s.agenda = .reset :: rest →
    ∃ t, step s = .next t ∧ t.h = Vector.replicate 8 0 ∧ t.v = Vector.replicate 16 0 ∧ t.m = Vector.replicate 16 0 ∧
      t.t = 0 ∧ t.inAddr = 0 ∧ t.len = 0 ∧ t.cmd = 0 ∧ t.status.word = 0 ∧ t.pend = false ∧
      (∀ a, t.mem.read a = s.mem.read a) ∧ t.params = s.params ∧ t.agenda = rest

/-- R252: an idle machine with nothing to come keeps all its state. -/
def Obligations.IdleKeepsAllState : Prop :=
  ∀ s : State, s.pend = false → s.agenda = [] → step s = .next s

/-- The invariant holds after reset. That IN is canonical and inside P_IN_SIZE there rests on the model's choice to list no
byte (log 2, where R37 says any value), and that P_IN_SIZE is at most 2^64 on the model's choice of 4096 (log 1, where
R11 leaves it OPEN). -/
def Obligations.InvariantHoldsAtReset : Prop := State.reset.Inv

/-- Every step keeps the invariant: PEND equals BUSY, what is in flight is a legal command, IN stays canonical and
inside P_IN_SIZE. -/
def Obligations.StepKeepsTheInvariant : Prop := ∀ s s' : State, s.Inv → step s = .next s' → s'.Inv
end

