-- ==== Sys2Proof/Laws/State.lean ====
section
/-! SUPPORT. One lemma per field per update of State, true by rfl. -/

namespace Sys2Proof.Machine.State

variable (s : State)

section setH
variable (x : Vector U64 8)
@[simp] theorem setH_h : (s.setH x).h = x := rfl
@[simp] theorem setH_v : (s.setH x).v = s.v := rfl
@[simp] theorem setH_m : (s.setH x).m = s.m := rfl
@[simp] theorem setH_t : (s.setH x).t = s.t := rfl
@[simp] theorem setH_inAddr : (s.setH x).inAddr = s.inAddr := rfl
@[simp] theorem setH_len : (s.setH x).len = s.len := rfl
@[simp] theorem setH_cmd : (s.setH x).cmd = s.cmd := rfl
@[simp] theorem setH_status : (s.setH x).status = s.status := rfl
@[simp] theorem setH_pend : (s.setH x).pend = s.pend := rfl
@[simp] theorem setH_hidden : (s.setH x).hidden = s.hidden := rfl
@[simp] theorem setH_mem : (s.setH x).mem = s.mem := rfl
@[simp] theorem setH_params : (s.setH x).params = s.params := rfl
@[simp] theorem setH_agenda : (s.setH x).agenda = s.agenda := rfl
@[simp] theorem setH_answer : (s.setH x).answer = s.answer := rfl
@[simp] theorem setH_draws : (s.setH x).draws = s.draws := rfl
end setH

section setV
variable (x : Vector U64 16)
@[simp] theorem setV_h : (s.setV x).h = s.h := rfl
@[simp] theorem setV_v : (s.setV x).v = x := rfl
@[simp] theorem setV_m : (s.setV x).m = s.m := rfl
@[simp] theorem setV_t : (s.setV x).t = s.t := rfl
@[simp] theorem setV_inAddr : (s.setV x).inAddr = s.inAddr := rfl
@[simp] theorem setV_len : (s.setV x).len = s.len := rfl
@[simp] theorem setV_cmd : (s.setV x).cmd = s.cmd := rfl
@[simp] theorem setV_status : (s.setV x).status = s.status := rfl
@[simp] theorem setV_pend : (s.setV x).pend = s.pend := rfl
@[simp] theorem setV_hidden : (s.setV x).hidden = s.hidden := rfl
@[simp] theorem setV_mem : (s.setV x).mem = s.mem := rfl
@[simp] theorem setV_params : (s.setV x).params = s.params := rfl
@[simp] theorem setV_agenda : (s.setV x).agenda = s.agenda := rfl
@[simp] theorem setV_answer : (s.setV x).answer = s.answer := rfl
@[simp] theorem setV_draws : (s.setV x).draws = s.draws := rfl
end setV

section setM
variable (x : Vector U64 16)
@[simp] theorem setM_h : (s.setM x).h = s.h := rfl
@[simp] theorem setM_v : (s.setM x).v = s.v := rfl
@[simp] theorem setM_m : (s.setM x).m = x := rfl
@[simp] theorem setM_t : (s.setM x).t = s.t := rfl
@[simp] theorem setM_inAddr : (s.setM x).inAddr = s.inAddr := rfl
@[simp] theorem setM_len : (s.setM x).len = s.len := rfl
@[simp] theorem setM_cmd : (s.setM x).cmd = s.cmd := rfl
@[simp] theorem setM_status : (s.setM x).status = s.status := rfl
@[simp] theorem setM_pend : (s.setM x).pend = s.pend := rfl
@[simp] theorem setM_hidden : (s.setM x).hidden = s.hidden := rfl
@[simp] theorem setM_mem : (s.setM x).mem = s.mem := rfl
@[simp] theorem setM_params : (s.setM x).params = s.params := rfl
@[simp] theorem setM_agenda : (s.setM x).agenda = s.agenda := rfl
@[simp] theorem setM_answer : (s.setM x).answer = s.answer := rfl
@[simp] theorem setM_draws : (s.setM x).draws = s.draws := rfl
end setM

section setT
variable (x : U128)
@[simp] theorem setT_h : (s.setT x).h = s.h := rfl
@[simp] theorem setT_v : (s.setT x).v = s.v := rfl
@[simp] theorem setT_m : (s.setT x).m = s.m := rfl
@[simp] theorem setT_t : (s.setT x).t = x := rfl
@[simp] theorem setT_inAddr : (s.setT x).inAddr = s.inAddr := rfl
@[simp] theorem setT_len : (s.setT x).len = s.len := rfl
@[simp] theorem setT_cmd : (s.setT x).cmd = s.cmd := rfl
@[simp] theorem setT_status : (s.setT x).status = s.status := rfl
@[simp] theorem setT_pend : (s.setT x).pend = s.pend := rfl
@[simp] theorem setT_hidden : (s.setT x).hidden = s.hidden := rfl
@[simp] theorem setT_mem : (s.setT x).mem = s.mem := rfl
@[simp] theorem setT_params : (s.setT x).params = s.params := rfl
@[simp] theorem setT_agenda : (s.setT x).agenda = s.agenda := rfl
@[simp] theorem setT_answer : (s.setT x).answer = s.answer := rfl
@[simp] theorem setT_draws : (s.setT x).draws = s.draws := rfl
end setT

section setInAddr
variable (x : U64)
@[simp] theorem setInAddr_h : (s.setInAddr x).h = s.h := rfl
@[simp] theorem setInAddr_v : (s.setInAddr x).v = s.v := rfl
@[simp] theorem setInAddr_m : (s.setInAddr x).m = s.m := rfl
@[simp] theorem setInAddr_t : (s.setInAddr x).t = s.t := rfl
@[simp] theorem setInAddr_inAddr : (s.setInAddr x).inAddr = x := rfl
@[simp] theorem setInAddr_len : (s.setInAddr x).len = s.len := rfl
@[simp] theorem setInAddr_cmd : (s.setInAddr x).cmd = s.cmd := rfl
@[simp] theorem setInAddr_status : (s.setInAddr x).status = s.status := rfl
@[simp] theorem setInAddr_pend : (s.setInAddr x).pend = s.pend := rfl
@[simp] theorem setInAddr_hidden : (s.setInAddr x).hidden = s.hidden := rfl
@[simp] theorem setInAddr_mem : (s.setInAddr x).mem = s.mem := rfl
@[simp] theorem setInAddr_params : (s.setInAddr x).params = s.params := rfl
@[simp] theorem setInAddr_agenda : (s.setInAddr x).agenda = s.agenda := rfl
@[simp] theorem setInAddr_answer : (s.setInAddr x).answer = s.answer := rfl
@[simp] theorem setInAddr_draws : (s.setInAddr x).draws = s.draws := rfl
end setInAddr

section setLen
variable (x : U64)
@[simp] theorem setLen_h : (s.setLen x).h = s.h := rfl
@[simp] theorem setLen_v : (s.setLen x).v = s.v := rfl
@[simp] theorem setLen_m : (s.setLen x).m = s.m := rfl
@[simp] theorem setLen_t : (s.setLen x).t = s.t := rfl
@[simp] theorem setLen_inAddr : (s.setLen x).inAddr = s.inAddr := rfl
@[simp] theorem setLen_len : (s.setLen x).len = x := rfl
@[simp] theorem setLen_cmd : (s.setLen x).cmd = s.cmd := rfl
@[simp] theorem setLen_status : (s.setLen x).status = s.status := rfl
@[simp] theorem setLen_pend : (s.setLen x).pend = s.pend := rfl
@[simp] theorem setLen_hidden : (s.setLen x).hidden = s.hidden := rfl
@[simp] theorem setLen_mem : (s.setLen x).mem = s.mem := rfl
@[simp] theorem setLen_params : (s.setLen x).params = s.params := rfl
@[simp] theorem setLen_agenda : (s.setLen x).agenda = s.agenda := rfl
@[simp] theorem setLen_answer : (s.setLen x).answer = s.answer := rfl
@[simp] theorem setLen_draws : (s.setLen x).draws = s.draws := rfl
end setLen

section setCmd
variable (x : U64)
@[simp] theorem setCmd_h : (s.setCmd x).h = s.h := rfl
@[simp] theorem setCmd_v : (s.setCmd x).v = s.v := rfl
@[simp] theorem setCmd_m : (s.setCmd x).m = s.m := rfl
@[simp] theorem setCmd_t : (s.setCmd x).t = s.t := rfl
@[simp] theorem setCmd_inAddr : (s.setCmd x).inAddr = s.inAddr := rfl
@[simp] theorem setCmd_len : (s.setCmd x).len = s.len := rfl
@[simp] theorem setCmd_cmd : (s.setCmd x).cmd = x := rfl
@[simp] theorem setCmd_status : (s.setCmd x).status = s.status := rfl
@[simp] theorem setCmd_pend : (s.setCmd x).pend = s.pend := rfl
@[simp] theorem setCmd_hidden : (s.setCmd x).hidden = s.hidden := rfl
@[simp] theorem setCmd_mem : (s.setCmd x).mem = s.mem := rfl
@[simp] theorem setCmd_params : (s.setCmd x).params = s.params := rfl
@[simp] theorem setCmd_agenda : (s.setCmd x).agenda = s.agenda := rfl
@[simp] theorem setCmd_answer : (s.setCmd x).answer = s.answer := rfl
@[simp] theorem setCmd_draws : (s.setCmd x).draws = s.draws := rfl
end setCmd

section setStatus
variable (x : Status)
@[simp] theorem setStatus_h : (s.setStatus x).h = s.h := rfl
@[simp] theorem setStatus_v : (s.setStatus x).v = s.v := rfl
@[simp] theorem setStatus_m : (s.setStatus x).m = s.m := rfl
@[simp] theorem setStatus_t : (s.setStatus x).t = s.t := rfl
@[simp] theorem setStatus_inAddr : (s.setStatus x).inAddr = s.inAddr := rfl
@[simp] theorem setStatus_len : (s.setStatus x).len = s.len := rfl
@[simp] theorem setStatus_cmd : (s.setStatus x).cmd = s.cmd := rfl
@[simp] theorem setStatus_status : (s.setStatus x).status = x := rfl
@[simp] theorem setStatus_pend : (s.setStatus x).pend = s.pend := rfl
@[simp] theorem setStatus_hidden : (s.setStatus x).hidden = s.hidden := rfl
@[simp] theorem setStatus_mem : (s.setStatus x).mem = s.mem := rfl
@[simp] theorem setStatus_params : (s.setStatus x).params = s.params := rfl
@[simp] theorem setStatus_agenda : (s.setStatus x).agenda = s.agenda := rfl
@[simp] theorem setStatus_answer : (s.setStatus x).answer = s.answer := rfl
@[simp] theorem setStatus_draws : (s.setStatus x).draws = s.draws := rfl
end setStatus

section setPend
variable (x : Bool)
@[simp] theorem setPend_h : (s.setPend x).h = s.h := rfl
@[simp] theorem setPend_v : (s.setPend x).v = s.v := rfl
@[simp] theorem setPend_m : (s.setPend x).m = s.m := rfl
@[simp] theorem setPend_t : (s.setPend x).t = s.t := rfl
@[simp] theorem setPend_inAddr : (s.setPend x).inAddr = s.inAddr := rfl
@[simp] theorem setPend_len : (s.setPend x).len = s.len := rfl
@[simp] theorem setPend_cmd : (s.setPend x).cmd = s.cmd := rfl
@[simp] theorem setPend_status : (s.setPend x).status = s.status := rfl
@[simp] theorem setPend_pend : (s.setPend x).pend = x := rfl
@[simp] theorem setPend_hidden : (s.setPend x).hidden = s.hidden := rfl
@[simp] theorem setPend_mem : (s.setPend x).mem = s.mem := rfl
@[simp] theorem setPend_params : (s.setPend x).params = s.params := rfl
@[simp] theorem setPend_agenda : (s.setPend x).agenda = s.agenda := rfl
@[simp] theorem setPend_answer : (s.setPend x).answer = s.answer := rfl
@[simp] theorem setPend_draws : (s.setPend x).draws = s.draws := rfl
end setPend

section setHidden
variable (x : Hidden)
@[simp] theorem setHidden_h : (s.setHidden x).h = s.h := rfl
@[simp] theorem setHidden_v : (s.setHidden x).v = s.v := rfl
@[simp] theorem setHidden_m : (s.setHidden x).m = s.m := rfl
@[simp] theorem setHidden_t : (s.setHidden x).t = s.t := rfl
@[simp] theorem setHidden_inAddr : (s.setHidden x).inAddr = s.inAddr := rfl
@[simp] theorem setHidden_len : (s.setHidden x).len = s.len := rfl
@[simp] theorem setHidden_cmd : (s.setHidden x).cmd = s.cmd := rfl
@[simp] theorem setHidden_status : (s.setHidden x).status = s.status := rfl
@[simp] theorem setHidden_pend : (s.setHidden x).pend = s.pend := rfl
@[simp] theorem setHidden_hidden : (s.setHidden x).hidden = x := rfl
@[simp] theorem setHidden_mem : (s.setHidden x).mem = s.mem := rfl
@[simp] theorem setHidden_params : (s.setHidden x).params = s.params := rfl
@[simp] theorem setHidden_agenda : (s.setHidden x).agenda = s.agenda := rfl
@[simp] theorem setHidden_answer : (s.setHidden x).answer = s.answer := rfl
@[simp] theorem setHidden_draws : (s.setHidden x).draws = s.draws := rfl
end setHidden

section setMem
variable (x : Memory)
@[simp] theorem setMem_h : (s.setMem x).h = s.h := rfl
@[simp] theorem setMem_v : (s.setMem x).v = s.v := rfl
@[simp] theorem setMem_m : (s.setMem x).m = s.m := rfl
@[simp] theorem setMem_t : (s.setMem x).t = s.t := rfl
@[simp] theorem setMem_inAddr : (s.setMem x).inAddr = s.inAddr := rfl
@[simp] theorem setMem_len : (s.setMem x).len = s.len := rfl
@[simp] theorem setMem_cmd : (s.setMem x).cmd = s.cmd := rfl
@[simp] theorem setMem_status : (s.setMem x).status = s.status := rfl
@[simp] theorem setMem_pend : (s.setMem x).pend = s.pend := rfl
@[simp] theorem setMem_hidden : (s.setMem x).hidden = s.hidden := rfl
@[simp] theorem setMem_mem : (s.setMem x).mem = x := rfl
@[simp] theorem setMem_params : (s.setMem x).params = s.params := rfl
@[simp] theorem setMem_agenda : (s.setMem x).agenda = s.agenda := rfl
@[simp] theorem setMem_answer : (s.setMem x).answer = s.answer := rfl
@[simp] theorem setMem_draws : (s.setMem x).draws = s.draws := rfl
end setMem

section setAgenda
variable (x : List Event)
@[simp] theorem setAgenda_h : (s.setAgenda x).h = s.h := rfl
@[simp] theorem setAgenda_v : (s.setAgenda x).v = s.v := rfl
@[simp] theorem setAgenda_m : (s.setAgenda x).m = s.m := rfl
@[simp] theorem setAgenda_t : (s.setAgenda x).t = s.t := rfl
@[simp] theorem setAgenda_inAddr : (s.setAgenda x).inAddr = s.inAddr := rfl
@[simp] theorem setAgenda_len : (s.setAgenda x).len = s.len := rfl
@[simp] theorem setAgenda_cmd : (s.setAgenda x).cmd = s.cmd := rfl
@[simp] theorem setAgenda_status : (s.setAgenda x).status = s.status := rfl
@[simp] theorem setAgenda_pend : (s.setAgenda x).pend = s.pend := rfl
@[simp] theorem setAgenda_hidden : (s.setAgenda x).hidden = s.hidden := rfl
@[simp] theorem setAgenda_mem : (s.setAgenda x).mem = s.mem := rfl
@[simp] theorem setAgenda_params : (s.setAgenda x).params = s.params := rfl
@[simp] theorem setAgenda_agenda : (s.setAgenda x).agenda = x := rfl
@[simp] theorem setAgenda_answer : (s.setAgenda x).answer = s.answer := rfl
@[simp] theorem setAgenda_draws : (s.setAgenda x).draws = s.draws := rfl
end setAgenda

section setAnswer
variable (x : Answer)
@[simp] theorem setAnswer_h : (s.setAnswer x).h = s.h := rfl
@[simp] theorem setAnswer_v : (s.setAnswer x).v = s.v := rfl
@[simp] theorem setAnswer_m : (s.setAnswer x).m = s.m := rfl
@[simp] theorem setAnswer_t : (s.setAnswer x).t = s.t := rfl
@[simp] theorem setAnswer_inAddr : (s.setAnswer x).inAddr = s.inAddr := rfl
@[simp] theorem setAnswer_len : (s.setAnswer x).len = s.len := rfl
@[simp] theorem setAnswer_cmd : (s.setAnswer x).cmd = s.cmd := rfl
@[simp] theorem setAnswer_status : (s.setAnswer x).status = s.status := rfl
@[simp] theorem setAnswer_pend : (s.setAnswer x).pend = s.pend := rfl
@[simp] theorem setAnswer_hidden : (s.setAnswer x).hidden = s.hidden := rfl
@[simp] theorem setAnswer_mem : (s.setAnswer x).mem = s.mem := rfl
@[simp] theorem setAnswer_params : (s.setAnswer x).params = s.params := rfl
@[simp] theorem setAnswer_agenda : (s.setAnswer x).agenda = s.agenda := rfl
@[simp] theorem setAnswer_answer : (s.setAnswer x).answer = x := rfl
@[simp] theorem setAnswer_draws : (s.setAnswer x).draws = s.draws := rfl
end setAnswer

section setDraws
variable (x : Nat)
@[simp] theorem setDraws_h : (s.setDraws x).h = s.h := rfl
@[simp] theorem setDraws_v : (s.setDraws x).v = s.v := rfl
@[simp] theorem setDraws_m : (s.setDraws x).m = s.m := rfl
@[simp] theorem setDraws_t : (s.setDraws x).t = s.t := rfl
@[simp] theorem setDraws_inAddr : (s.setDraws x).inAddr = s.inAddr := rfl
@[simp] theorem setDraws_len : (s.setDraws x).len = s.len := rfl
@[simp] theorem setDraws_cmd : (s.setDraws x).cmd = s.cmd := rfl
@[simp] theorem setDraws_status : (s.setDraws x).status = s.status := rfl
@[simp] theorem setDraws_pend : (s.setDraws x).pend = s.pend := rfl
@[simp] theorem setDraws_hidden : (s.setDraws x).hidden = s.hidden := rfl
@[simp] theorem setDraws_mem : (s.setDraws x).mem = s.mem := rfl
@[simp] theorem setDraws_params : (s.setDraws x).params = s.params := rfl
@[simp] theorem setDraws_agenda : (s.setDraws x).agenda = s.agenda := rfl
@[simp] theorem setDraws_answer : (s.setDraws x).answer = s.answer := rfl
@[simp] theorem setDraws_draws : (s.setDraws x).draws = x := rfl
end setDraws

end Sys2Proof.Machine.State
end

