-- ==== Sys2Proof/Laws/Block.lean ====
section
/-! SUPPORT. What the stages of the block compressor and of DRIVE leave alone, field by field. -/

namespace Sys2Proof.Machine

section Stages
variable (blk : Vector Byte 128) (f0 f1 : Bool) (s : State)

@[simp] theorem parseStage_h : (parseStage blk s).h = s.h := rfl
@[simp] theorem parseStage_v : (parseStage blk s).v = s.v := rfl
@[simp] theorem parseStage_m : (parseStage blk s).m = Vector.ofFn fun i => le64 blk i := rfl
@[simp] theorem parseStage_t : (parseStage blk s).t = s.t := rfl
@[simp] theorem parseStage_inAddr : (parseStage blk s).inAddr = s.inAddr := rfl
@[simp] theorem parseStage_len : (parseStage blk s).len = s.len := rfl
@[simp] theorem parseStage_cmd : (parseStage blk s).cmd = s.cmd := rfl
@[simp] theorem parseStage_status : (parseStage blk s).status = s.status := rfl
@[simp] theorem parseStage_pend : (parseStage blk s).pend = s.pend := rfl
@[simp] theorem parseStage_hidden : (parseStage blk s).hidden = s.hidden := rfl
@[simp] theorem parseStage_mem : (parseStage blk s).mem = s.mem := rfl
@[simp] theorem parseStage_params : (parseStage blk s).params = s.params := rfl
@[simp] theorem parseStage_agenda : (parseStage blk s).agenda = s.agenda := rfl
@[simp] theorem parseStage_answer : (parseStage blk s).answer = s.answer := rfl
@[simp] theorem parseStage_draws : (parseStage blk s).draws = s.draws := rfl
@[simp] theorem initStage_h : (initStage f0 f1 s).h = s.h := rfl
@[simp] theorem initStage_v : (initStage f0 f1 s).v = initVector s.h s.t f0 f1 := rfl
@[simp] theorem initStage_m : (initStage f0 f1 s).m = s.m := rfl
@[simp] theorem initStage_t : (initStage f0 f1 s).t = s.t := rfl
@[simp] theorem initStage_inAddr : (initStage f0 f1 s).inAddr = s.inAddr := rfl
@[simp] theorem initStage_len : (initStage f0 f1 s).len = s.len := rfl
@[simp] theorem initStage_cmd : (initStage f0 f1 s).cmd = s.cmd := rfl
@[simp] theorem initStage_status : (initStage f0 f1 s).status = s.status := rfl
@[simp] theorem initStage_pend : (initStage f0 f1 s).pend = s.pend := rfl
@[simp] theorem initStage_hidden : (initStage f0 f1 s).hidden = s.hidden := rfl
@[simp] theorem initStage_mem : (initStage f0 f1 s).mem = s.mem := rfl
@[simp] theorem initStage_params : (initStage f0 f1 s).params = s.params := rfl
@[simp] theorem initStage_agenda : (initStage f0 f1 s).agenda = s.agenda := rfl
@[simp] theorem initStage_answer : (initStage f0 f1 s).answer = s.answer := rfl
@[simp] theorem initStage_draws : (initStage f0 f1 s).draws = s.draws := rfl
@[simp] theorem foldStage_h : (foldStage s).h = foldVector s.h s.v := rfl
@[simp] theorem foldStage_v : (foldStage s).v = s.v := rfl
@[simp] theorem foldStage_m : (foldStage s).m = s.m := rfl
@[simp] theorem foldStage_t : (foldStage s).t = s.t := rfl
@[simp] theorem foldStage_inAddr : (foldStage s).inAddr = s.inAddr := rfl
@[simp] theorem foldStage_len : (foldStage s).len = s.len := rfl
@[simp] theorem foldStage_cmd : (foldStage s).cmd = s.cmd := rfl
@[simp] theorem foldStage_status : (foldStage s).status = s.status := rfl
@[simp] theorem foldStage_pend : (foldStage s).pend = s.pend := rfl
@[simp] theorem foldStage_hidden : (foldStage s).hidden = s.hidden := rfl
@[simp] theorem foldStage_mem : (foldStage s).mem = s.mem := rfl
@[simp] theorem foldStage_params : (foldStage s).params = s.params := rfl
@[simp] theorem foldStage_agenda : (foldStage s).agenda = s.agenda := rfl
@[simp] theorem foldStage_answer : (foldStage s).answer = s.answer := rfl
@[simp] theorem foldStage_draws : (foldStage s).draws = s.draws := rfl

end Stages

section Rounds
variable (s : State) (n : Nat)

@[simp] theorem gSteps_h : (gSteps n s).h = s.h := by
  induction n generalizing s with
  | zero => rfl
  | succ n ih => rw [gSteps, ih]; rfl
@[simp] theorem gSteps_m : (gSteps n s).m = s.m := by
  induction n generalizing s with
  | zero => rfl
  | succ n ih => rw [gSteps, ih]; rfl
@[simp] theorem gSteps_t : (gSteps n s).t = s.t := by
  induction n generalizing s with
  | zero => rfl
  | succ n ih => rw [gSteps, ih]; rfl
@[simp] theorem gSteps_inAddr : (gSteps n s).inAddr = s.inAddr := by
  induction n generalizing s with
  | zero => rfl
  | succ n ih => rw [gSteps, ih]; rfl
@[simp] theorem gSteps_len : (gSteps n s).len = s.len := by
  induction n generalizing s with
  | zero => rfl
  | succ n ih => rw [gSteps, ih]; rfl
@[simp] theorem gSteps_cmd : (gSteps n s).cmd = s.cmd := by
  induction n generalizing s with
  | zero => rfl
  | succ n ih => rw [gSteps, ih]; rfl
@[simp] theorem gSteps_status : (gSteps n s).status = s.status := by
  induction n generalizing s with
  | zero => rfl
  | succ n ih => rw [gSteps, ih]; rfl
@[simp] theorem gSteps_pend : (gSteps n s).pend = s.pend := by
  induction n generalizing s with
  | zero => rfl
  | succ n ih => rw [gSteps, ih]; rfl
@[simp] theorem gSteps_mem : (gSteps n s).mem = s.mem := by
  induction n generalizing s with
  | zero => rfl
  | succ n ih => rw [gSteps, ih]; rfl
@[simp] theorem gSteps_params : (gSteps n s).params = s.params := by
  induction n generalizing s with
  | zero => rfl
  | succ n ih => rw [gSteps, ih]; rfl
@[simp] theorem gSteps_agenda : (gSteps n s).agenda = s.agenda := by
  induction n generalizing s with
  | zero => rfl
  | succ n ih => rw [gSteps, ih]; rfl
@[simp] theorem gSteps_answer : (gSteps n s).answer = s.answer := by
  induction n generalizing s with
  | zero => rfl
  | succ n ih => rw [gSteps, ih]; rfl
@[simp] theorem gSteps_draws : (gSteps n s).draws = s.draws := by
  induction n generalizing s with
  | zero => rfl
  | succ n ih => rw [gSteps, ih]; rfl
end Rounds

/-- A hidden G step moves only the counters of the hidden registers (R136). -/
theorem Hidden.nextStep_drive (x : Hidden) : x.nextStep.off = x.off ∧ x.nextStep.finOff = x.finOff ∧
    x.nextStep.finLen = x.finLen ∧ x.nextStep.fbuf = x.fbuf ∧ x.nextStep.m0 = x.m0 ∧ x.nextStep.m1 = x.m1 := by
  unfold Hidden.nextStep
  split
  · simp
  · split <;> simp

/-- The G steps move only the counters of the hidden registers (R136). -/
theorem gSteps_drive (n : Nat) (s : State) : (gSteps n s).hidden.off = s.hidden.off ∧
    (gSteps n s).hidden.finOff = s.hidden.finOff ∧ (gSteps n s).hidden.finLen = s.hidden.finLen ∧
    (gSteps n s).hidden.fbuf = s.hidden.fbuf ∧ (gSteps n s).hidden.m0 = s.hidden.m0 ∧
    (gSteps n s).hidden.m1 = s.hidden.m1 := by
  induction n generalizing s with
  | zero => simp [gSteps]
  | succ n ih =>
    rw [gSteps]
    obtain ⟨h1, h2, h3, h4, h5, h6⟩ := ih (gStep s)
    obtain ⟨g1, g2, g3, g4, g5, g6⟩ := s.hidden.nextStep_drive
    exact ⟨h1.trans g1, h2.trans g2, h3.trans g3, h4.trans g4, h5.trans g5, h6.trans g6⟩

/-- The rounds stage moves only the counters of the hidden registers (R136). -/
theorem roundsStage_drive (s : State) : (roundsStage s).hidden.off = s.hidden.off ∧
    (roundsStage s).hidden.finOff = s.hidden.finOff ∧ (roundsStage s).hidden.finLen = s.hidden.finLen ∧
    (roundsStage s).hidden.fbuf = s.hidden.fbuf ∧ (roundsStage s).hidden.m0 = s.hidden.m0 ∧
    (roundsStage s).hidden.m1 = s.hidden.m1 := by
  unfold roundsStage
  exact gSteps_drive 96 _

section Compress
variable (blk : Vector Byte 128) (f0 f1 : Bool) (s : State)

@[simp] theorem compressBlock_m : (compressBlock blk f0 f1 s).m = Vector.ofFn fun i => le64 blk i := by
  simp [compressBlock, roundsStage]
@[simp] theorem compressBlock_t : (compressBlock blk f0 f1 s).t = s.t := by
  simp [compressBlock, roundsStage]
@[simp] theorem compressBlock_inAddr : (compressBlock blk f0 f1 s).inAddr = s.inAddr := by
  simp [compressBlock, roundsStage]
@[simp] theorem compressBlock_len : (compressBlock blk f0 f1 s).len = s.len := by
  simp [compressBlock, roundsStage]
@[simp] theorem compressBlock_cmd : (compressBlock blk f0 f1 s).cmd = s.cmd := by
  simp [compressBlock, roundsStage]
@[simp] theorem compressBlock_status : (compressBlock blk f0 f1 s).status = s.status := by
  simp [compressBlock, roundsStage]
@[simp] theorem compressBlock_pend : (compressBlock blk f0 f1 s).pend = s.pend := by
  simp [compressBlock, roundsStage]
@[simp] theorem compressBlock_mem : (compressBlock blk f0 f1 s).mem = s.mem := by
  simp [compressBlock, roundsStage]
@[simp] theorem compressBlock_params : (compressBlock blk f0 f1 s).params = s.params := by
  simp [compressBlock, roundsStage]
@[simp] theorem compressBlock_agenda : (compressBlock blk f0 f1 s).agenda = s.agenda := by
  simp [compressBlock, roundsStage]
@[simp] theorem compressBlock_answer : (compressBlock blk f0 f1 s).answer = s.answer := by
  simp [compressBlock, roundsStage]
@[simp] theorem compressBlock_draws : (compressBlock blk f0 f1 s).draws = s.draws := by
  simp [compressBlock, roundsStage]

/-- CompressBlock leaves the hidden registers of DRIVE alone. -/
theorem compressBlock_drive : (compressBlock blk f0 f1 s).hidden.off = s.hidden.off ∧
    (compressBlock blk f0 f1 s).hidden.finOff = s.hidden.finOff ∧
    (compressBlock blk f0 f1 s).hidden.finLen = s.hidden.finLen ∧
    (compressBlock blk f0 f1 s).hidden.fbuf = s.hidden.fbuf ∧ (compressBlock blk f0 f1 s).hidden.m0 = s.hidden.m0 ∧
    (compressBlock blk f0 f1 s).hidden.m1 = s.hidden.m1 := by
  have h := roundsStage_drive (initStage f0 f1 (parseStage blk s))
  simpa only [compressBlock, foldStage_hidden, initStage_hidden, parseStage_hidden] using h
end Compress

section Drive
variable (n w : Nat) (s : State)

@[simp] theorem driveBlock_inAddr : (driveBlock s).inAddr = s.inAddr := by
  unfold driveBlock; split <;> simp
@[simp] theorem driveBlock_len : (driveBlock s).len = s.len := by
  unfold driveBlock; split <;> simp
@[simp] theorem driveBlock_cmd : (driveBlock s).cmd = s.cmd := by
  unfold driveBlock; split <;> simp
@[simp] theorem driveBlock_status : (driveBlock s).status = s.status := by
  unfold driveBlock; split <;> simp
@[simp] theorem driveBlock_pend : (driveBlock s).pend = s.pend := by
  unfold driveBlock; split <;> simp
@[simp] theorem driveBlock_mem : (driveBlock s).mem = s.mem := by
  unfold driveBlock; split <;> simp
@[simp] theorem driveBlock_params : (driveBlock s).params = s.params := by
  unfold driveBlock; split <;> simp
@[simp] theorem driveBlock_agenda : (driveBlock s).agenda = s.agenda := by
  unfold driveBlock; split <;> simp
@[simp] theorem driveBlock_answer : (driveBlock s).answer = s.answer := by
  unfold driveBlock; split <;> simp
@[simp] theorem driveBlock_draws : (driveBlock s).draws = s.draws := by
  unfold driveBlock; split <;> simp
@[simp] theorem driveLoop_inAddr : (driveLoop n w s).inAddr = s.inAddr := by
  induction n generalizing s with
  | zero => rfl
  | succ n ih =>
    rw [driveLoop]
    split
    · simp
    · rw [ih]; simp [advanceOff]
@[simp] theorem driveLoop_len : (driveLoop n w s).len = s.len := by
  induction n generalizing s with
  | zero => rfl
  | succ n ih =>
    rw [driveLoop]
    split
    · simp
    · rw [ih]; simp [advanceOff]
@[simp] theorem driveLoop_cmd : (driveLoop n w s).cmd = s.cmd := by
  induction n generalizing s with
  | zero => rfl
  | succ n ih =>
    rw [driveLoop]
    split
    · simp
    · rw [ih]; simp [advanceOff]
@[simp] theorem driveLoop_status : (driveLoop n w s).status = s.status := by
  induction n generalizing s with
  | zero => rfl
  | succ n ih =>
    rw [driveLoop]
    split
    · simp
    · rw [ih]; simp [advanceOff]
@[simp] theorem driveLoop_pend : (driveLoop n w s).pend = s.pend := by
  induction n generalizing s with
  | zero => rfl
  | succ n ih =>
    rw [driveLoop]
    split
    · simp
    · rw [ih]; simp [advanceOff]
@[simp] theorem driveLoop_mem : (driveLoop n w s).mem = s.mem := by
  induction n generalizing s with
  | zero => rfl
  | succ n ih =>
    rw [driveLoop]
    split
    · simp
    · rw [ih]; simp [advanceOff]
@[simp] theorem driveLoop_params : (driveLoop n w s).params = s.params := by
  induction n generalizing s with
  | zero => rfl
  | succ n ih =>
    rw [driveLoop]
    split
    · simp
    · rw [ih]; simp [advanceOff]
@[simp] theorem driveLoop_agenda : (driveLoop n w s).agenda = s.agenda := by
  induction n generalizing s with
  | zero => rfl
  | succ n ih =>
    rw [driveLoop]
    split
    · simp
    · rw [ih]; simp [advanceOff]
@[simp] theorem driveLoop_answer : (driveLoop n w s).answer = s.answer := by
  induction n generalizing s with
  | zero => rfl
  | succ n ih =>
    rw [driveLoop]
    split
    · simp
    · rw [ih]; simp [advanceOff]
@[simp] theorem driveLoop_draws : (driveLoop n w s).draws = s.draws := by
  induction n generalizing s with
  | zero => rfl
  | succ n ih =>
    rw [driveLoop]
    split
    · simp
    · rw [ih]; simp [advanceOff]
@[simp] theorem driveBody_inAddr (fin ln : Bool) (k : Fin 16) : (driveBody fin ln k s).inAddr = s.inAddr := by
  simp [driveBody, driveSetup]
@[simp] theorem driveBody_len (fin ln : Bool) (k : Fin 16) : (driveBody fin ln k s).len = s.len := by
  simp [driveBody, driveSetup]
@[simp] theorem driveBody_cmd (fin ln : Bool) (k : Fin 16) : (driveBody fin ln k s).cmd = s.cmd := by
  simp [driveBody, driveSetup]
@[simp] theorem driveBody_status (fin ln : Bool) (k : Fin 16) : (driveBody fin ln k s).status = s.status := by
  simp [driveBody, driveSetup]
@[simp] theorem driveBody_pend (fin ln : Bool) (k : Fin 16) : (driveBody fin ln k s).pend = s.pend := by
  simp [driveBody, driveSetup]
@[simp] theorem driveBody_mem (fin ln : Bool) (k : Fin 16) : (driveBody fin ln k s).mem = s.mem := by
  simp [driveBody, driveSetup]
@[simp] theorem driveBody_params (fin ln : Bool) (k : Fin 16) : (driveBody fin ln k s).params = s.params := by
  simp [driveBody, driveSetup]
@[simp] theorem driveBody_agenda (fin ln : Bool) (k : Fin 16) : (driveBody fin ln k s).agenda = s.agenda := by
  simp [driveBody, driveSetup]
@[simp] theorem driveBody_answer (fin ln : Bool) (k : Fin 16) : (driveBody fin ln k s).answer = s.answer := by
  simp [driveBody, driveSetup]
@[simp] theorem driveBody_draws (fin ln : Bool) (k : Fin 16) : (driveBody fin ln k s).draws = s.draws := by
  simp [driveBody, driveSetup]
end Drive

end Sys2Proof.Machine
end

