-- ==== Sys2Proof/Laws/Bytes.lean ====
section
/-! SUPPORT. Little-endian words (R15, R62): which byte of a parsed word is which byte of the block. -/

namespace Sys2Proof.Machine

theorem littleEndian_byte (l : List Byte) (j : Nat) :
    littleEndian l / 2 ^ (8 * j) % 256 = (l[j]?.getD 0).toNat := by
  induction l generalizing j with
  | nil => simp [littleEndian]
  | cons b rest ih =>
    have hb : b.toNat < 256 := b.isLt
    cases j with
    | zero => simp only [littleEndian, Nat.mul_zero, Nat.pow_zero, Nat.div_one, List.getElem?_cons_zero, Option.getD_some]; omega
    | succ j =>
      have e : 2 ^ (8 * (j + 1)) = 256 * 2 ^ (8 * j) := by rw [Nat.mul_add, Nat.pow_add]; omega
      rw [littleEndian, e, ← Nat.div_div_eq_div_mul, show (b.toNat + 256 * littleEndian rest) / 256 = littleEndian rest by omega,
        ih, List.getElem?_cons_succ]

/-- The words LOADM reads are the words of the block at IN_ADDR (R15, R150, R154). -/
theorem Memory.readWord_eq (mem : Memory) (a : Nat) (i : Fin 16) :
    mem.readWord (a + 8 * i.val) = le64 (mem.readBlock a) i := by
  have h : (List.range 8).map (fun j => mem.read (a + 8 * i.val + j)) =
      List.ofFn fun j : Fin 8 => (mem.readBlock a)[8 * i.val + j.val] := by
    refine List.ext_getElem (by simp) fun n h1 h2 => ?_
    simp only [List.getElem_map, List.getElem_range, List.getElem_ofFn, Memory.readBlock, Vector.getElem_ofFn, Nat.add_assoc]
  unfold Memory.readWord le64
  rw [h]

/-- LOADM parses the block at IN_ADDR as CompressBlock does (R150, R154 step 2). -/
theorem loadmBody_eq (s : State) : loadmBody s = parseStage (s.mem.readBlock s.inAddr.toNat) s := by
  unfold loadmBody parseStage
  simp only [Memory.readWord_eq]

/-- Byte `j` of word `i` is byte `8i + j` of the block (R62). -/
theorem le64_byte (buf : Vector Byte 128) (i : Fin 16) (j : Fin 8) :
    (le64 buf i).extractLsb' (8 * j.val) 8 = buf[8 * i.val + j.val] := by
  refine BitVec.eq_of_toNat_eq ?_
  have h := littleEndian_byte (List.ofFn fun j : Fin 8 => buf[8 * i.val + j.val]) j.val
  have hj : 2 ^ 64 = 2 ^ (8 * j.val) * (256 * 2 ^ (56 - 8 * j.val)) := by
    rw [show 256 = 2 ^ 8 from rfl, ← Nat.pow_add, ← Nat.pow_add]
    congr 1
    omega
  rw [BitVec.extractLsb'_toNat, Nat.shiftRight_eq_div_pow, le64, BitVec.toNat_ofNat, hj, Nat.mod_mul_right_div_self,
    Nat.mod_mul_right_mod, h, List.getElem?_eq_getElem (by simp), Option.getD_some, List.getElem_ofFn]

end Sys2Proof.Machine
end

