-- ==== Sys2Proof/Laws/Decode.lean ====
section
/-! SUPPORT. How the decoder's field reader and row test act on a word put together from fields. -/

namespace Sys2Proof

theorem nibble_testBit (w : U64) (lo j : Nat) :
    (nibble w lo).val.testBit j = (decide (j < 4) && w.getLsbD (lo + j)) := by
  have h : (nibble w lo).val = (w.extractLsb' lo 4).toNat := rfl
  rw [h, BitVec.testBit_toNat, BitVec.getLsbD_extractLsb']

/-- A field of a word put together by `|` is put together from the parts' fields. -/
theorem nibble_or (x y : U64) (lo : Nat) : (nibble (x ||| y) lo).val = (nibble x lo).val ||| (nibble y lo).val := by
  refine Nat.eq_of_testBit_eq fun j => ?_
  rw [Nat.testBit_or, nibble_testBit, nibble_testBit, nibble_testBit, BitVec.getLsbD_or, Bool.and_or_distrib_left]

/-- A field read is the four bits of the word's number (R12). -/
theorem nibble_val (w : U64) (lo : Nat) : (nibble w lo).val = w.toNat / 2 ^ lo % 16 := by
  have h : (nibble w lo).val = (w.extractLsb' lo 4).toNat := rfl
  rw [h, BitVec.extractLsb'_toNat, Nat.shiftRight_eq_div_pow]

/-- The row test of a word put together by `|` (R83). -/
theorem and_mask_or (x y mask : U64) : (x ||| y) &&& mask = (x &&& mask) ||| (y &&& mask) := by
  ext i hi
  simp [Bool.and_or_distrib_right]

end Sys2Proof
end

