-- ==== Sys2Proof/Laws/Driver.lean ====
section
/-! SUPPORT. The list of blocks that DRIVE compresses (R188, R190). -/

namespace Sys2Proof.Machine

/-- The blocks before the last are the interior blocks. -/
theorem driveBlocks_dropLast (mem : Memory) (base len : Nat) (fin ln : Bool) (w : Nat) :
    (driveBlocks mem base len fin ln w).dropLast
      = (List.range (finalOffset len w / w)).map fun n => (mem.readBlock (base + n * w), 128, false, false) := by
  rw [driveBlocks, List.dropLast_concat]

/-- DRIVE's chain value and counter: those the interior blocks leave, and then the padded final block (R188). -/
theorem drivenChain_eq (h : Vector U64 8) (t : U128) (mem : Memory) (base len : Nat) (fin ln : Bool) (w : Nat) :
    drivenChain h t mem base len fin ln w
      = chainBlock ((driveBlocks mem base len fin ln w).dropLast.foldl chainBlock (h, t))
          (paddedBlock mem (base + finalOffset len w) (tailLength len w), tailLength len w, fin, fin && ln) := by
  rw [driveBlocks_dropLast, drivenChain, driveBlocks, List.foldl_append, List.foldl_cons, List.foldl_nil]

end Sys2Proof.Machine
end

