-- ==== Sys2Proof/Laws/Ops.lean ====
section
/-! SUPPORT. What each shared operation over State does, field by field, and what a command by `runCommand` does. -/

namespace Sys2Proof.Machine

namespace State

variable (s : State)

section completeFields
@[simp] theorem complete_h : s.complete.h = s.h := rfl
@[simp] theorem complete_v : s.complete.v = s.v := rfl
@[simp] theorem complete_m : s.complete.m = s.m := rfl
@[simp] theorem complete_t : s.complete.t = s.t := rfl
@[simp] theorem complete_inAddr : s.complete.inAddr = s.inAddr := rfl
@[simp] theorem complete_len : s.complete.len = s.len := rfl
@[simp] theorem complete_cmd : s.complete.cmd = s.cmd := rfl
@[simp] theorem complete_status : s.complete.status = s.status.completed := rfl
@[simp] theorem complete_pend : s.complete.pend = false := rfl
@[simp] theorem complete_hidden : s.complete.hidden = s.hidden := rfl
@[simp] theorem complete_mem : s.complete.mem = s.mem := rfl
@[simp] theorem complete_params : s.complete.params = s.params := rfl
@[simp] theorem complete_agenda : s.complete.agenda = s.agenda := rfl
@[simp] theorem complete_answer : s.complete.answer = s.answer := rfl
@[simp] theorem complete_draws : s.complete.draws = s.draws := rfl
end completeFields

section beginFields
@[simp] theorem begin_h : s.begin.h = s.h := rfl
@[simp] theorem begin_v : s.begin.v = s.v := rfl
@[simp] theorem begin_m : s.begin.m = s.m := rfl
@[simp] theorem begin_t : s.begin.t = s.t := rfl
@[simp] theorem begin_inAddr : s.begin.inAddr = s.inAddr := rfl
@[simp] theorem begin_len : s.begin.len = s.len := rfl
@[simp] theorem begin_cmd : s.begin.cmd = s.cmd := rfl
@[simp] theorem begin_status : s.begin.status = s.status.started := rfl
@[simp] theorem begin_pend : s.begin.pend = true := rfl
@[simp] theorem begin_hidden : s.begin.hidden = s.hidden := rfl
@[simp] theorem begin_mem : s.begin.mem = s.mem := rfl
@[simp] theorem begin_params : s.begin.params = s.params := rfl
@[simp] theorem begin_agenda : s.begin.agenda = s.agenda := rfl
@[simp] theorem begin_answer : s.begin.answer = s.answer := rfl
@[simp] theorem begin_draws : s.begin.draws = s.draws := rfl
end beginFields

section scrambleFields
@[simp] theorem scramble_h : s.scramble.h = s.h := rfl
@[simp] theorem scramble_v : s.scramble.v = s.v := rfl
@[simp] theorem scramble_m : s.scramble.m = s.m := rfl
@[simp] theorem scramble_t : s.scramble.t = s.t := rfl
@[simp] theorem scramble_inAddr : s.scramble.inAddr = s.inAddr := rfl
@[simp] theorem scramble_len : s.scramble.len = s.len := rfl
@[simp] theorem scramble_cmd : s.scramble.cmd = s.cmd := rfl
@[simp] theorem scramble_status : s.scramble.status = s.status := rfl
@[simp] theorem scramble_pend : s.scramble.pend = s.pend := rfl
@[simp] theorem scramble_hidden : s.scramble.hidden = Hidden.free s.draws := rfl
@[simp] theorem scramble_mem : s.scramble.mem = s.mem := rfl
@[simp] theorem scramble_params : s.scramble.params = s.params := rfl
@[simp] theorem scramble_agenda : s.scramble.agenda = s.agenda := rfl
@[simp] theorem scramble_answer : s.scramble.answer = s.answer := rfl
@[simp] theorem scramble_draws : s.scramble.draws = s.draws + 1 := rfl
end scrambleFields

section finishFields
@[simp] theorem finish_h : s.finish.h = s.h := rfl
@[simp] theorem finish_v : s.finish.v = s.v := rfl
@[simp] theorem finish_m : s.finish.m = s.m := rfl
@[simp] theorem finish_t : s.finish.t = s.t := rfl
@[simp] theorem finish_inAddr : s.finish.inAddr = s.inAddr := rfl
@[simp] theorem finish_len : s.finish.len = s.len := rfl
@[simp] theorem finish_cmd : s.finish.cmd = s.cmd := rfl
@[simp] theorem finish_status : s.finish.status = s.status.completed := rfl
@[simp] theorem finish_pend : s.finish.pend = false := rfl
@[simp] theorem finish_hidden : s.finish.hidden = Hidden.free s.draws := rfl
@[simp] theorem finish_mem : s.finish.mem = s.mem := rfl
@[simp] theorem finish_params : s.finish.params = s.params := rfl
@[simp] theorem finish_agenda : s.finish.agenda = s.agenda := rfl
@[simp] theorem finish_answer : s.finish.answer = s.answer := rfl
@[simp] theorem finish_draws : s.finish.draws = s.draws + 1 := rfl
end finishFields

section markUnmFields
@[simp] theorem markUnm_h : s.markUnm.h = s.h := rfl
@[simp] theorem markUnm_v : s.markUnm.v = s.v := rfl
@[simp] theorem markUnm_m : s.markUnm.m = s.m := rfl
@[simp] theorem markUnm_t : s.markUnm.t = s.t := rfl
@[simp] theorem markUnm_inAddr : s.markUnm.inAddr = s.inAddr := rfl
@[simp] theorem markUnm_len : s.markUnm.len = s.len := rfl
@[simp] theorem markUnm_cmd : s.markUnm.cmd = s.cmd := rfl
@[simp] theorem markUnm_status : s.markUnm.status = { s.status with unm := true } := rfl
@[simp] theorem markUnm_pend : s.markUnm.pend = s.pend := rfl
@[simp] theorem markUnm_hidden : s.markUnm.hidden = s.hidden := rfl
@[simp] theorem markUnm_mem : s.markUnm.mem = s.mem := rfl
@[simp] theorem markUnm_params : s.markUnm.params = s.params := rfl
@[simp] theorem markUnm_agenda : s.markUnm.agenda = s.agenda := rfl
@[simp] theorem markUnm_answer : s.markUnm.answer = s.answer := rfl
@[simp] theorem markUnm_draws : s.markUnm.draws = s.draws := rfl
end markUnmFields

section markWrbFields
@[simp] theorem markWrb_h : s.markWrb.h = s.h := rfl
@[simp] theorem markWrb_v : s.markWrb.v = s.v := rfl
@[simp] theorem markWrb_m : s.markWrb.m = s.m := rfl
@[simp] theorem markWrb_t : s.markWrb.t = s.t := rfl
@[simp] theorem markWrb_inAddr : s.markWrb.inAddr = s.inAddr := rfl
@[simp] theorem markWrb_len : s.markWrb.len = s.len := rfl
@[simp] theorem markWrb_cmd : s.markWrb.cmd = s.cmd := rfl
@[simp] theorem markWrb_status : s.markWrb.status = { s.status with wrb := true } := rfl
@[simp] theorem markWrb_pend : s.markWrb.pend = s.pend := rfl
@[simp] theorem markWrb_hidden : s.markWrb.hidden = s.hidden := rfl
@[simp] theorem markWrb_mem : s.markWrb.mem = s.mem := rfl
@[simp] theorem markWrb_params : s.markWrb.params = s.params := rfl
@[simp] theorem markWrb_agenda : s.markWrb.agenda = s.agenda := rfl
@[simp] theorem markWrb_answer : s.markWrb.answer = s.answer := rfl
@[simp] theorem markWrb_draws : s.markWrb.draws = s.draws := rfl
end markWrbFields

section raiseFields
variable (e : ErrCode)
@[simp] theorem raise_h : (s.raise e).h = s.h := rfl
@[simp] theorem raise_v : (s.raise e).v = s.v := rfl
@[simp] theorem raise_m : (s.raise e).m = s.m := rfl
@[simp] theorem raise_t : (s.raise e).t = s.t := rfl
@[simp] theorem raise_inAddr : (s.raise e).inAddr = s.inAddr := rfl
@[simp] theorem raise_len : (s.raise e).len = s.len := rfl
@[simp] theorem raise_cmd : (s.raise e).cmd = s.cmd := rfl
@[simp] theorem raise_status : (s.raise e).status = s.status.failed e := rfl
@[simp] theorem raise_pend : (s.raise e).pend = false := rfl
@[simp] theorem raise_hidden : (s.raise e).hidden = s.hidden := rfl
@[simp] theorem raise_mem : (s.raise e).mem = s.mem := rfl
@[simp] theorem raise_params : (s.raise e).params = s.params := rfl
@[simp] theorem raise_agenda : (s.raise e).agenda = s.agenda := rfl
@[simp] theorem raise_answer : (s.raise e).answer = s.answer := rfl
@[simp] theorem raise_draws : (s.raise e).draws = s.draws := rfl
end raiseFields

section captureFields
variable (w : U64)
@[simp] theorem capture_h : (s.capture w).h = s.h := rfl
@[simp] theorem capture_v : (s.capture w).v = s.v := rfl
@[simp] theorem capture_m : (s.capture w).m = s.m := rfl
@[simp] theorem capture_t : (s.capture w).t = s.t := rfl
@[simp] theorem capture_inAddr : (s.capture w).inAddr = s.inAddr := rfl
@[simp] theorem capture_len : (s.capture w).len = s.len := rfl
@[simp] theorem capture_cmd : (s.capture w).cmd = w := rfl
@[simp] theorem capture_status : (s.capture w).status = s.status.captured := rfl
@[simp] theorem capture_pend : (s.capture w).pend = s.pend := rfl
@[simp] theorem capture_hidden : (s.capture w).hidden = s.hidden := rfl
@[simp] theorem capture_mem : (s.capture w).mem = s.mem := rfl
@[simp] theorem capture_params : (s.capture w).params = s.params := rfl
@[simp] theorem capture_agenda : (s.capture w).agenda = s.agenda := rfl
@[simp] theorem capture_answer : (s.capture w).answer = s.answer := rfl
@[simp] theorem capture_draws : (s.capture w).draws = s.draws := rfl
end captureFields

end State

@[simp] theorem Status.completed_busy (x : Status) : x.completed.busy = false := rfl
@[simp] theorem Status.completed_done (x : Status) : x.completed.done = true := rfl
@[simp] theorem Status.completed_err (x : Status) : x.completed.err = x.err := rfl
@[simp] theorem Status.completed_wrb (x : Status) : x.completed.wrb = x.wrb := rfl
@[simp] theorem Status.completed_unm (x : Status) : x.completed.unm = x.unm := rfl
@[simp] theorem Status.failed_busy (x : Status) (e : ErrCode) : (x.failed e).busy = false := rfl
@[simp] theorem Status.failed_done (x : Status) (e : ErrCode) : (x.failed e).done = true := rfl
@[simp] theorem Status.failed_err (x : Status) (e : ErrCode) : (x.failed e).err = e := rfl
@[simp] theorem Status.failed_wrb (x : Status) (e : ErrCode) : (x.failed e).wrb = x.wrb := rfl
@[simp] theorem Status.failed_unm (x : Status) (e : ErrCode) : (x.failed e).unm = x.unm := rfl
@[simp] theorem Status.captured_busy (x : Status) : x.captured.busy = x.busy := rfl
@[simp] theorem Status.captured_done (x : Status) : x.captured.done = false := rfl
@[simp] theorem Status.captured_err (x : Status) : x.captured.err = .ok := rfl
@[simp] theorem Status.captured_wrb (x : Status) : x.captured.wrb = x.wrb := rfl
@[simp] theorem Status.captured_unm (x : Status) : x.captured.unm = x.unm := rfl
@[simp] theorem Status.started_busy (x : Status) : x.started.busy = true := rfl
@[simp] theorem Status.started_done (x : Status) : x.started.done = x.done := rfl
@[simp] theorem Status.started_err (x : Status) : x.started.err = x.err := rfl
@[simp] theorem Status.started_wrb (x : Status) : x.started.wrb = x.wrb := rfl
@[simp] theorem Status.started_unm (x : Status) : x.started.unm = x.unm := rfl
@[simp] theorem Status.writeOneClears_busy (x : Status) (v : U64) : (x.writeOneClears v).busy = x.busy := rfl
@[simp] theorem Status.writeOneClears_err (x : Status) (v : U64) : (x.writeOneClears v).err = x.err := rfl

@[simp] theorem runCommand_some (e : ErrCode) (body : State → State) (s : State) :
    runCommand (some e) body s = .next (s.raise e) := rfl

@[simp] theorem runCommand_none (body : State → State) (s : State) :
    runCommand none body s = .next (body s).finish := rfl

/-- Everything a command by `runCommand` can do: it raises an error, or it runs its body and finishes. -/
theorem runCommand_cases {check : Option ErrCode} {body : State → State} {s t : State}
    (h : runCommand check body s = .next t) :
    (∃ e, check = some e ∧ t = s.raise e) ∨ (check = none ∧ t = (body s).finish) := by
  cases check with
  | some e => exact .inl ⟨e, rfl, by simpa using h.symm⟩
  | none => exact .inr ⟨rfl, by simpa using h.symm⟩

/-- `issueError` is the check that `exec` makes first: if it names an error, `exec` raises it. -/
theorem exec_of_issueError_some {i : Instr} {s : State} {e : ErrCode} (h : issueError i s = some e) :
    exec i s = .next (s.raise e) := by
  cases i <;> simp_all [issueError, exec, execG, execRound, execLoadm, execCompress, execDrive]

/-- Reset keeps what is not state of the engine (R280): IN, what the machine is built with, what the host does next. -/
theorem resetState_kept (s : State) :
    (resetState s).mem = s.mem ∧ (resetState s).params = s.params ∧ (resetState s).agenda = s.agenda :=
  ⟨rfl, rfl, rfl⟩

end Sys2Proof.Machine
end

