-- ==== Sys2Proof/Laws/Exec.lean ====
section
/-! SUPPORT. What `exec` does, said once: a command raises the error `issueError` names, or runs its body and finishes.
Proofs cite `exec_eq` and the lemmas on `commandBody`, and unfold no meaning. -/

namespace Sys2Proof.Machine

/-- The body of each command: its rule without the `raise` lines and without the completion. -/
def commandBody (i : Instr) (s : State) : State :=
  match i with
  | .nop => s
  | .g a b c d mx my => s.setV (gfun s.v a b c d s.m[mx] s.m[my])
  | .round r => roundBody r s
  | .loadm => loadmBody s
  | .init f0 f1 => initStage f0 f1 s
  | .fold => foldStage s
  | .compress f0 f1 => compressBlock (s.mem.readBlock s.inAddr.toNat) f0 f1 s
  | .drive fin ln k => driveBody fin ln k s

theorem exec_nop (s : State) : exec .nop s = .next s.complete := rfl

/-- Everything a command but NOP can do: it raises an error, or it runs its body and finishes. -/
theorem exec_eq {i : Instr} (hi : i ≠ .nop) (s : State) : exec i s = runCommand (issueError i s) (commandBody i) s := by
  cases i with
  | nop => exact absurd rfl hi
  | g a b c d mx my => rfl
  | round r => rfl
  | loadm => rfl
  | init f0 f1 => rfl
  | fold => rfl
  | compress f0 f1 =>
    unfold exec execCompress
    cases h : checkBlockRange s <;> simp [issueError, h, commandBody]
  | drive fin ln k =>
    unfold exec execDrive
    cases h : checkDrive fin k s <;> simp [issueError, h, commandBody]

/-- A command none of whose errors applies runs its body and finishes. -/
theorem exec_of_issueError_none {i : Instr} (hi : i ≠ .nop) {s : State} (h : issueError i s = none) :
    exec i s = .next (commandBody i s).finish := by
  rw [exec_eq hi, h, runCommand_none]

/-- The raise lines of a command read only its fields, IN_ADDR, LEN and the parameters (R222). -/
theorem issueError_congr {s t : State} (h1 : t.inAddr = s.inAddr) (h2 : t.len = s.len) (h3 : t.params = s.params)
    (i : Instr) : issueError i t = issueError i s := by
  cases i <;> simp [issueError, checkBlockRange, checkDrive, h1, h2, h3]

/-- The body of ROUND writes V only, if anything (R133). -/
theorem roundBody_eq (r : Fin 16) (s : State) : roundBody r s = s.setV (roundBody r s).v := by
  unfold roundBody
  split
  · simp only [State.setV_v]
  · rfl

section Body
variable (i : Instr) (s : State)

@[simp] theorem commandBody_inAddr : (commandBody i s).inAddr = s.inAddr := by
  cases i with
  | nop => rfl
  | g a b c d mx my => rfl
  | round r => rw [commandBody, roundBody_eq, State.setV_inAddr]
  | loadm => rfl
  | init f0 f1 => rfl
  | fold => rfl
  | compress f0 f1 => exact compressBlock_inAddr _ f0 f1 s
  | drive fin ln k => exact driveBody_inAddr s fin ln k

@[simp] theorem commandBody_len : (commandBody i s).len = s.len := by
  cases i with
  | nop => rfl
  | g a b c d mx my => rfl
  | round r => rw [commandBody, roundBody_eq, State.setV_len]
  | loadm => rfl
  | init f0 f1 => rfl
  | fold => rfl
  | compress f0 f1 => exact compressBlock_len _ f0 f1 s
  | drive fin ln k => exact driveBody_len s fin ln k

@[simp] theorem commandBody_cmd : (commandBody i s).cmd = s.cmd := by
  cases i with
  | nop => rfl
  | g a b c d mx my => rfl
  | round r => rw [commandBody, roundBody_eq, State.setV_cmd]
  | loadm => rfl
  | init f0 f1 => rfl
  | fold => rfl
  | compress f0 f1 => exact compressBlock_cmd _ f0 f1 s
  | drive fin ln k => exact driveBody_cmd s fin ln k

@[simp] theorem commandBody_status : (commandBody i s).status = s.status := by
  cases i with
  | nop => rfl
  | g a b c d mx my => rfl
  | round r => rw [commandBody, roundBody_eq, State.setV_status]
  | loadm => rfl
  | init f0 f1 => rfl
  | fold => rfl
  | compress f0 f1 => exact compressBlock_status _ f0 f1 s
  | drive fin ln k => exact driveBody_status s fin ln k

@[simp] theorem commandBody_pend : (commandBody i s).pend = s.pend := by
  cases i with
  | nop => rfl
  | g a b c d mx my => rfl
  | round r => rw [commandBody, roundBody_eq, State.setV_pend]
  | loadm => rfl
  | init f0 f1 => rfl
  | fold => rfl
  | compress f0 f1 => exact compressBlock_pend _ f0 f1 s
  | drive fin ln k => exact driveBody_pend s fin ln k

@[simp] theorem commandBody_mem : (commandBody i s).mem = s.mem := by
  cases i with
  | nop => rfl
  | g a b c d mx my => rfl
  | round r => rw [commandBody, roundBody_eq, State.setV_mem]
  | loadm => rfl
  | init f0 f1 => rfl
  | fold => rfl
  | compress f0 f1 => exact compressBlock_mem _ f0 f1 s
  | drive fin ln k => exact driveBody_mem s fin ln k

@[simp] theorem commandBody_params : (commandBody i s).params = s.params := by
  cases i with
  | nop => rfl
  | g a b c d mx my => rfl
  | round r => rw [commandBody, roundBody_eq, State.setV_params]
  | loadm => rfl
  | init f0 f1 => rfl
  | fold => rfl
  | compress f0 f1 => exact compressBlock_params _ f0 f1 s
  | drive fin ln k => exact driveBody_params s fin ln k

@[simp] theorem commandBody_agenda : (commandBody i s).agenda = s.agenda := by
  cases i with
  | nop => rfl
  | g a b c d mx my => rfl
  | round r => rw [commandBody, roundBody_eq, State.setV_agenda]
  | loadm => rfl
  | init f0 f1 => rfl
  | fold => rfl
  | compress f0 f1 => exact compressBlock_agenda _ f0 f1 s
  | drive fin ln k => exact driveBody_agenda s fin ln k

@[simp] theorem commandBody_answer : (commandBody i s).answer = s.answer := by
  cases i with
  | nop => rfl
  | g a b c d mx my => rfl
  | round r => rw [commandBody, roundBody_eq, State.setV_answer]
  | loadm => rfl
  | init f0 f1 => rfl
  | fold => rfl
  | compress f0 f1 => exact compressBlock_answer _ f0 f1 s
  | drive fin ln k => exact driveBody_answer s fin ln k

@[simp] theorem commandBody_draws : (commandBody i s).draws = s.draws := by
  cases i with
  | nop => rfl
  | g a b c d mx my => rfl
  | round r => rw [commandBody, roundBody_eq, State.setV_draws]
  | loadm => rfl
  | init f0 f1 => rfl
  | fold => rfl
  | compress f0 f1 => exact compressBlock_draws _ f0 f1 s
  | drive fin ln k => exact driveBody_draws s fin ln k

end Body

end Sys2Proof.Machine
end

