-- ==== Sys2Proof/Laws/Memory.lean ====
section
/-! SUPPORT. The IN byte space: reading a byte after writing one, and the canonical form, which every memory operation
keeps. -/

namespace Sys2Proof.Machine

theorem insertCell_mem {a : Nat} {v : Byte} {l : List Host.Cell} {c : Host.Cell} (h : c ∈ insertCell a v l) :
    c ∈ l ∨ (c = (a, v) ∧ v ≠ Memory.unlisted) := by
  induction l with
  | nil => simp only [insertCell] at h; split at h <;> simp_all
  | cons d rest ih =>
    simp only [insertCell] at h
    split at h
    · split at h
      · exact .inl h
      · rcases List.mem_cons.1 h with h | h
        · exact .inr ⟨h, ‹_›⟩
        · exact .inl h
    · split at h
      · split at h
        · exact .inl (List.mem_cons_of_mem _ h)
        · rcases List.mem_cons.1 h with h | h
          · exact .inr ⟨h, ‹_›⟩
          · exact .inl (List.mem_cons_of_mem _ h)
      · rcases List.mem_cons.1 h with h | h
        · exact .inl (h ▸ List.mem_cons_self)
        · rcases ih h with h | h
          · exact .inl (List.mem_cons_of_mem _ h)
          · exact .inr h

theorem insertCell_pairwise {a : Nat} {v : Byte} {l : List Host.Cell}
    (h : l.Pairwise (fun c c' => c.1 < c'.1)) : (insertCell a v l).Pairwise (fun c c' => c.1 < c'.1) := by
  induction l with
  | nil => simp only [insertCell]; split <;> simp
  | cons d rest ih =>
    obtain ⟨hd, hrest⟩ := List.pairwise_cons.1 h
    simp only [insertCell]
    split
    · split
      · exact h
      · refine List.pairwise_cons.2 ⟨fun c hc => ?_, h⟩
        rcases List.mem_cons.1 hc with rfl | hc
        · assumption
        · have := hd c hc
          simp only at *
          omega
    · split
      · split
        · exact hrest
        · refine List.pairwise_cons.2 ⟨fun c hc => ?_, hrest⟩
          have := hd c hc
          simp only at *
          omega
      · refine List.pairwise_cons.2 ⟨fun c hc => ?_, ih hrest⟩
        rcases insertCell_mem hc with hc | ⟨rfl, -⟩
        · exact hd c hc
        · simp only
          omega

theorem Memory.reset_wf : (⟨[]⟩ : Memory).wf := by decide

/-- A host write keeps the canonical form of IN. -/
theorem Memory.write_wf {m : Memory} (h : m.wf) (a : Nat) (v : Byte) : (m.write a v).wf := by
  refine ⟨insertCell_pairwise h.1, fun c hc => ?_⟩
  rcases insertCell_mem hc with hc | ⟨rfl, hv⟩
  · exact h.2 c hc
  · exact hv

/-- A host write adds no byte outside the bound its address meets. -/
theorem Memory.write_inside {m : Memory} {n a : Nat} {v : Byte} (h : ∀ c ∈ m.cells, c.1 < n) (ha : a < n) :
    ∀ c ∈ (m.write a v).cells, c.1 < n := by
  intro c hc
  rcases insertCell_mem hc with hc | ⟨rfl, -⟩
  · exact h c hc
  · exact ha

theorem lookupCell_of_lt {a : Nat} {l : List Host.Cell} (h : ∀ c ∈ l, a < c.1) :
    lookupCell a l = Memory.unlisted := by
  induction l with
  | nil => rfl
  | cons d rest ih =>
    have := h d List.mem_cons_self
    simp only [lookupCell]
    rw [if_neg (by omega)]
    exact ih fun c hc => h c (List.mem_cons_of_mem _ hc)

theorem lookupCell_insertCell {l : List Host.Cell} (h : l.Pairwise (fun c c' => c.1 < c'.1)) (a b : Nat) (v : Byte) :
    lookupCell b (insertCell a v l) = if b = a then v else lookupCell b l := by
  induction l with
  | nil =>
    simp only [insertCell]
    by_cases hv : v = Memory.unlisted
    · simp [hv, lookupCell]
    · simp only [hv, if_false, lookupCell, eq_comm]
  | cons d rest ih =>
    obtain ⟨hd, hrest⟩ := List.pairwise_cons.1 h
    have ih := ih hrest
    simp only [insertCell]
    by_cases h1 : a < d.1
    · by_cases hv : v = Memory.unlisted
      · simp only [h1, hv, if_true]
        by_cases hb : b = a
        · subst hb
          rw [if_pos rfl]
          refine lookupCell_of_lt fun c hc => ?_
          rcases List.mem_cons.1 hc with rfl | hc
          · exact h1
          · exact Nat.lt_trans h1 (hd c hc)
        · rw [if_neg hb]
      · simp only [h1, hv, if_true, if_false]
        by_cases hb : b = a
        · simp [lookupCell, hb]
        · simp [lookupCell, hb, Ne.symm hb]
    · by_cases h2 : a = d.1
      · by_cases hv : v = Memory.unlisted
        · simp only [h2, hv, Nat.lt_irrefl, if_false, if_true]
          by_cases hb : b = d.1
          · subst hb
            rw [if_pos rfl]
            exact lookupCell_of_lt hd
          · simp [lookupCell, hb, Ne.symm hb]
        · simp only [h2, hv, Nat.lt_irrefl, if_false, if_true]
          by_cases hb : b = d.1
          · simp [lookupCell, hb]
          · simp [lookupCell, hb, Ne.symm hb]
      · simp only [h1, h2, if_false, lookupCell, ih]
        by_cases hb : b = a
        · subst hb
          simp [Ne.symm h2]
        · simp [hb]

/-- Reading `b` after writing `v` at `a`: the new byte at `a`, the old byte anywhere else. -/
theorem Memory.read_write {m : Memory} (h : m.wf) (a b : Nat) (v : Byte) :
    (m.write a v).read b = if b = a then v else m.read b := lookupCell_insertCell h.1 a b v

end Sys2Proof.Machine
end

