-- ==== Sys2Proof/Laws/Mixer.lean ====
section
/-! SUPPORT. What the G mixer and a round leave alone. -/

namespace Sys2Proof.Machine

/-- Gfun changes only its four slots (R110). -/
theorem gfun_other (v : Vector U64 16) (a b c d : Fin 16) (x y : U64) (i : Fin 16)
    (ha : i ≠ a) (hb : i ≠ b) (hc : i ≠ c) (hd : i ≠ d) : (gfun v a b c d x y)[i] = v[i] := by
  have h (j : Fin 16) (hj : i ≠ j) : ¬ (j.val = i.val) := fun e => hj (Fin.ext e.symm)
  simp [gfun, Vector.getElem_set, h a ha, h b hb, h c hc, h d hd]

/-- Gfun on pairwise distinct slots writes the mixed words into them. -/
theorem gfun_slots (v : Vector U64 16) (a b c d : Fin 16) (x y : U64) (h : slotsDistinct a b c d = true) :
    (gfun v a b c d x y)[a] = (mixWords v[a] v[b] v[c] v[d] x y).a ∧
    (gfun v a b c d x y)[b] = (mixWords v[a] v[b] v[c] v[d] x y).b ∧
    (gfun v a b c d x y)[c] = (mixWords v[a] v[b] v[c] v[d] x y).c ∧
    (gfun v a b c d x y)[d] = (mixWords v[a] v[b] v[c] v[d] x y).d := by
  simp only [slotsDistinct, Bool.and_eq_true, bne_iff_ne, ne_eq, ← Fin.val_inj] at h
  obtain ⟨⟨⟨⟨⟨hab, hac⟩, had⟩, hbc⟩, hbd⟩, hcd⟩ := h
  simp [gfun, mixWords, hab, hac, had, hbc, hbd, hcd, Ne.symm hab, Ne.symm hac, Ne.symm had, Ne.symm hbc, Ne.symm hbd,
    Ne.symm hcd]

end Sys2Proof.Machine
end

