-- ==== Sys2Proof/Laws/PerInstr.lean ====
section
/-! SUPPORT. Statements about every command as syntax, one lemma per constructor. -/

namespace Sys2Proof.Laws

/-- The row of R83 a command belongs to. -/
def rowOf : Instr → OpcodeRow
  | .nop => rowNop
  | .g _ _ _ _ _ _ => rowG
  | .round _ => rowRound
  | .loadm => rowLoadm
  | .init _ _ => rowInit
  | .fold => rowFold
  | .compress _ _ => rowCompress
  | .drive _ _ _ => rowDrive

namespace RowSelects

/-- The assembled word of the command is selected by the command's own row of R83: it has the row's opcode, and 0 in
every reserved bit, whatever the fields. -/
def Statement (i : Instr) : Prop := (rowOf i).selects (encode i) = true

theorem nop : Statement .nop := by unfold Statement; decide

theorem g (a b c d mx my : Fin 16) : Statement (.g a b c d mx my) := by
  have h4 : ∀ x : Fin 16, fieldAt x 4 &&& rowG.mask = 0 := by decide
  have h8 : ∀ x : Fin 16, fieldAt x 8 &&& rowG.mask = 0 := by decide
  have h12 : ∀ x : Fin 16, fieldAt x 12 &&& rowG.mask = 0 := by decide
  have h16 : ∀ x : Fin 16, fieldAt x 16 &&& rowG.mask = 0 := by decide
  have h20 : ∀ x : Fin 16, fieldAt x 20 &&& rowG.mask = 0 := by decide
  have h24 : ∀ x : Fin 16, fieldAt x 24 &&& rowG.mask = 0 := by decide
  simp only [Statement, rowOf, OpcodeRow.selects, encode, and_mask_or, h4, h8, h12, h16, h20, h24]
  decide

theorem round (r : Fin 16) : Statement (.round r) := by
  have h : ∀ r : Fin 16, (rowOf (.round r)).selects (encode (.round r)) = true := by decide
  exact h r

theorem loadm : Statement .loadm := by unfold Statement; decide

theorem init (f0 f1 : Bool) : Statement (.init f0 f1) := by unfold Statement; cases f0 <;> cases f1 <;> decide

theorem fold : Statement .fold := by unfold Statement; decide

theorem compress (f0 f1 : Bool) : Statement (.compress f0 f1) := by unfold Statement; cases f0 <;> cases f1 <;> decide

theorem drive (fin ln : Bool) (k : Fin 16) : Statement (.drive fin ln k) := by
  have h : ∀ k : Fin 16, (rowOf (.drive fin ln k)).selects (encode (.drive fin ln k)) = true := by
    cases fin <;> cases ln <;> decide
  exact h k

end RowSelects

end Sys2Proof.Laws
end

