-- ==== Sys2Proof/Laws/Run.lean ====
section
/-! SUPPORT. How runs are put together from runs. -/

namespace Sys2Proof.Machine

@[simp] theorem runSteps_zero (s : State) : runSteps 0 s = .next s := rfl

/-- A run starts with a step that gives a next state, and goes on from there. -/
theorem runSteps_of_step {s t : State} (h : step s = .next t) (n : Nat) : runSteps (n + 1) s = runSteps n t := by
  simp only [runSteps, h]

/-- A run that reaches `t` goes on as a run from `t`. -/
theorem runSteps_add {n : Nat} {s t : State} (h : runSteps n s = .next t) (m : Nat) :
    runSteps (n + m) s = runSteps m t := by
  induction n generalizing s with
  | zero =>
    rw [runSteps_zero] at h
    cases h
    rw [Nat.zero_add]
  | succ n ih =>
    rw [Nat.add_right_comm]
    cases hs : step s with
    | next s1 =>
      rw [runSteps_of_step hs] at h ⊢
      exact ih h
    | fault r => simp [runSteps, hs] at h
    | refused r => simp [runSteps, hs] at h

end Sys2Proof.Machine
end

