-- ==== Sys2Proof/Tests/Slice0.lean ====
section
/-! SUPPORT. Tests. Every expected value is the spec's (95_test_vectors.md, named per theorem, or the rule named). The
second part gives, for each statement with hypotheses, a state and operands that meet them. -/

namespace Sys2Proof.Tests

open Sys2Proof.Machine

set_option maxRecDepth 20000

/-! ### Helpers -/

/-- What a state field is after an outcome that is a next state. -/
def after {α : Type} (o : Outcome) (f : State → α) : Option α :=
  match o with
  | .next t => some (f t)
  | .fault _ => none
  | .refused _ => none

/-- `h0` of 95_test_vectors.md (R284). -/
def h0 : Vector U64 8 := iv.set 0 0x6A09E667F2BDC948

/-- The state of the vectors: reset with H = h0. -/
def start : State := { State.reset with h := h0 }

/-- `IN = seq`, its first `n` bytes. -/
def seqMem (n : Nat) : Memory :=
  ⟨(List.range n).filterMap fun a => if a % 256 = 0 then none else some (a, BitVec.ofNat 8 a)⟩

/-- The bytes of "abc" at address 0. -/
def abcMem : Memory := ⟨[(0, 0x61), (1, 0x62), (2, 0x63)]⟩

/-- `start` with the command word `w` in flight. -/
def inFlight (w : U64) : State :=
  { start with cmd := w, status := { Status.reset with busy := true }, pend := true }

/-! ### Well-formedness: each check refuses an ill-formed command (R83) -/

theorem test_wf_g_refuses_equal_slots :
    [Instr.g 1 1 2 3 0 0, .g 1 2 1 3 0 0, .g 1 2 3 1 0 0, .g 0 1 1 3 0 0, .g 0 1 2 1 0 0, .g 0 1 3 3 0 0].map
      Instr.wellFormed = List.replicate 6 false := by decide

theorem test_wf_g_accepts_distinct_slots : (Instr.g 0 4 8 12 7 7).wellFormed = true := by decide

theorem test_wf_round_refuses_above_eleven :
    (Instr.round 12).wellFormed = false ∧ (Instr.round 15).wellFormed = false ∧ (Instr.round 11).wellFormed = true := by
  decide

theorem test_wf_drive_refuses_zero_stride :
    (Instr.drive true false 0).wellFormed = false ∧ (Instr.drive false true 15).wellFormed = true := by decide

/-! ### Decoding: words written out from the formats of R80 and the opcodes of R82 -/

theorem test_decode_nop : decode (0#60 ++ 0b0000#4) = .ok .nop := by decide

/-- my, mx, d, c, b, a, opcode 1. -/
theorem test_decode_g :
    decode (0#36 ++ 0b0110#4 ++ 0b0101#4 ++ 0b0100#4 ++ 0b0011#4 ++ 0b0010#4 ++ 0b0001#4 ++ 0b0001#4)
      = .ok (.g 1 2 3 4 5 6) := by decide

theorem test_decode_round : decode (0#56 ++ 0b1011#4 ++ 0b0010#4) = .ok (.round 11) := by decide

theorem test_decode_loadm : decode (0#60 ++ 0b0011#4) = .ok .loadm := by decide

/-- Bit 4 is f0 and bit 5 is f1. -/
theorem test_decode_init : decode (0#58 ++ 0b0#1 ++ 0b1#1 ++ 0b0100#4) = .ok (.init true false) := by decide

theorem test_decode_fold : decode (0#60 ++ 0b0101#4) = .ok .fold := by decide

theorem test_decode_compress : decode (0#58 ++ 0b1#1 ++ 0b0#1 ++ 0b0110#4) = .ok (.compress false true) := by decide

/-- k, two reserved bits, ln, fin, opcode 7. -/
theorem test_decode_drive :
    decode (0#52 ++ 0b0101#4 ++ 0b00#2 ++ 0b0#1 ++ 0b1#1 ++ 0b0111#4) = .ok (.drive true false 5) := by decide

/-- T-E1 to T-E4 and T-L6, T-F4. -/
theorem test_decode_refuses :
    decode 0x8 = .error .illegalOpcode ∧ decode 0xFFFFFFFFFFFFFFFF = .error .illegalOpcode ∧
    decode 0x10 = .error .illegalField ∧ decode 0x100000003 = .error .illegalField ∧
    decode 0x13 = .error .illegalField ∧ decode 0x15 = .error .illegalField := by decide

/-- R83: no word is selected by two rows. -/
theorem test_rows_do_not_overlap :
    opcodeTable.Pairwise (fun r r' => r.mask &&& r'.mask &&& (r.matchBits ^^^ r'.matchBits) ≠ 0) := by decide

/-- R86: the assembled words of the rule. -/
theorem test_encode_examples :
    encode (.g 0 4 8 12 0 1) = 0x010C8401 ∧ encode (.drive true true 4) = 0x437 ∧ encode (.round 11) = 0xB2 := by decide

/-! ### The commands: vectors of 95_test_vectors.md -/

/-- T-E6, and the example of R224: after an error, NOP leaves STATUS = 0x2. -/
theorem test_nop_clears_error :
    after (hostRegWrite cmdIndex 0 { start with status := { Status.reset with done := true, err := .illegalField } })
      (fun t => t.status.word) = some 0x2 := by decide

/-- T-G8. -/
theorem test_g_mixed_values :
    after (exec (.g 0 4 8 12 0 1) { State.reset with
        v := #v[0x0123456789ABCDEF, 0, 0, 0, 0xFEDCBA9876543210, 0, 0, 0, 0x0F1E2D3C4B5A6978, 0, 0, 0,
          0x8796A5B4C3D2E1F0, 0, 0, 0]
        m := (Vector.replicate 16 0).set 0 0x1111111111111111 |>.set 1 0x2222222222222222 }) (fun t => t.v)
      = some #v[0xE95F405271D7B7C9, 0, 0, 0, 0xA6C4A94D586303F4, 0, 0, 0, 0xE54E59B99295056D, 0, 0, 0,
          0x036C3B9CB0B2E750, 0, 0, 0] := by decide +kernel

/-- T-G6: the first addition wraps. -/
theorem test_g_wraps :
    after (exec (.g 0 4 8 12 0 1) { State.reset with
        v := (Vector.replicate 16 0).set 0 0xFFFFFFFFFFFFFFFF |>.set 4 1 })
      (fun t => (t.v[0], t.v[4], t.v[8], t.v[12]))
      = some (0x0000010000000000, 0x0000020002000000, 0x0000000001000000, 0x0000000001000000) := by decide +kernel

/-- T-R5: in round 1 the word M[14] is x of the first column step. -/
theorem test_round_one_message_selection :
    after (exec (.round 1) { State.reset with m := (Vector.replicate 16 0).set 14 1 })
      (fun t => (t.v[0], t.v[1], t.v[5], t.v[15]))
      = some (0x0000000000010201, 0x0100000001000001, 0x0402020202000202, 0x0201000001010001) := by decide +kernel

/-- T-R6: ROUND 12 is ILLEGAL_FIELD. -/
theorem test_round_twelve_is_illegal :
    after (hostRegWrite cmdIndex 0xC2 start) (fun t => (t.status.word, t.v)) = some (0x22, start.v) := by decide

/-- T-L2: an unaligned block. -/
theorem test_loadm_unaligned :
    after (exec .loadm { start with mem := seqMem 129, inAddr := 1 }) (fun t => (t.m[0], t.m[1], t.m[15]))
      = some (0x0807060504030201, 0x100F0E0D0C0B0A09, 0x807F7E7D7C7B7A79) := by decide +kernel

/-- T-L4: one byte over the end of IN. -/
theorem test_loadm_range :
    after (hostRegWrite cmdIndex 0x3 { start with inAddr := 3969 }) (fun t => (t.status.word, t.m))
      = some (0x32, start.m) := by decide

/-- T-I1: the last-block mask. -/
theorem test_init_last_block :
    after (exec (.init true false) { start with t := 3 }) (fun t => (t.v[0], t.v[8], t.v[12], t.v[13], t.v[14], t.v[15]))
      = some (0x6A09E667F2BDC948, 0x6A09E667F3BCC908, 0x510E527FADE682D2, 0x9B05688C2B3E6C1F, 0xE07C265404BE4294,
          0x5BE0CD19137E2179) := by decide +kernel

/-- T-I2: both counter halves. -/
theorem test_init_counter_halves :
    after (exec (.init false false) { State.reset with t := 2 ^ 64 + 5 }) (fun t => (t.v[12], t.v[13], t.v[14], t.v[15]))
      = some (0x510E527FADE682D4, 0x9B05688C2B3E6C1E, 0x1F83D9ABFB41BD6B, 0x5BE0CD19137E2179) := by decide +kernel

/-- T-F1. -/
theorem test_fold_small :
    after (exec .fold { State.reset with
        h := #v[1, 2, 3, 4, 5, 6, 7, 8]
        v := Vector.ofFn (fun i => BitVec.ofNat 64 (16 + i.val)) }) (fun t => t.h)
      = some #v[9, 10, 11, 12, 13, 14, 15, 0] := by decide +kernel

/-- T-C1. -/
theorem test_compress_abc :
    after (exec (.compress true false) { start with mem := abcMem, t := 3 }) (fun t => t.h)
      = some #v[0x0D4D1C983FA580BA, 0xE9F6129FB697276A, 0xB7C45A68142F214C, 0xD1A2FFDB6FBB124B, 0x2D79AB2A39C5877D,
          0x95CC3345DED552C2, 0x5A92F1DBA88AD318, 0x239900D4ED8623B9] := by decide +kernel

/-- T-C7: the last block that fits, and the first that does not. -/
theorem test_compress_range :
    checkBlockRange { start with params := { inSize := 200, contractMode := .fault }, inAddr := 72 } = none ∧
    checkBlockRange { start with params := { inSize := 200, contractMode := .fault }, inAddr := 73 } = some .range := by
  decide

/-- T-D14: stride 2, an interior block and a short final block. -/
theorem test_drive_stride_two :
    after (exec (.drive true false 2) { start with mem := seqMem 300, len := 300 }) (fun t => (t.t, t.h[0], t.h[7]))
      = some (172, 0x120E31CE6BFD8AC7, 0x57B80957EB1F54AA) := by decide +kernel

/-- T-D11: a broken caller contract. -/
theorem test_drive_contract :
    after (hostRegWrite cmdIndex 0x107 { start with len := 200 }) (fun t => (t.status.word, t.t, t.h))
      = some (0x42, 0, h0) := by decide

/-! ### The host port: vectors of 95_test_vectors.md -/

/-- T-H2: a write while busy is dropped. -/
theorem test_port_write_while_busy :
    after (hostRegWrite 0x00 5 (inFlight 0x117)) (fun t => (t.status.word, t.h, t.pend)) = some (0x101, h0, true) := by
  decide

/-- T-H4 and T-H8: writing ones to STATUS clears DONE, WRB and UNM and keeps ERR. -/
theorem test_port_status_write :
    after (hostRegWrite 0x2D 0x100 { start with status := { Status.reset with done := true, wrb := true } })
      (fun t => t.status.word) = some 0x002 ∧
    after (hostRegWrite 0x2D 0xFFFFFFFFFFFFFFFF
      { start with status := ⟨false, true, .illegalField, true, true⟩ }) (fun t => t.status.word) = some 0x020 := by
  decide

/-- T-H5: a reserved index. -/
theorem test_port_reserved_index :
    after (hostRegRead 0x30 start) (fun t => (t.answer, t.status.word)) = some (.word 0, 0x200) := by decide

/-- T-H10 and T-H11: the counter halves. -/
theorem test_port_counter_halves :
    after (hostRegWrite 0x28 5 { start with t := 2 ^ 64 + 7 }) (fun t => t.t) = some (2 ^ 64 + 5) ∧
    after (hostRegWrite 0x29 0 { start with t := 2 ^ 64 + 7 }) (fun t => t.t) = some 7 := by decide

/-- T-H14 and T-H15: the end of DRIVE's read range. -/
theorem test_port_in_write_hazard :
    hostInWrite 299 1 { inFlight 0x117 with len := 300 } = .fault (.hzInWrite 299) ∧
    after (hostInWrite 300 1 { inFlight 0x117 with len := 300 }) (fun t => t.mem) = some ⟨[(300, 1)]⟩ := by
  exact ⟨rfl, by decide⟩

/-- R65, R87: a byte that INW would write past the end of the largest IN is stuck, and does not wrap to address 0. -/
theorem test_inw_does_not_wrap :
    (HostProgram.inw (2 ^ 64 - 1) [1, 2]).map (fun e => eventStep e
      { start with params := { inSize := 2 ^ 64, contractMode := .fault } })
      = [.next { start with params := { inSize := 2 ^ 64, contractMode := .fault }, mem := ⟨[(2 ^ 64 - 1, 1)]⟩ },
         .fault (.inOutside (2 ^ 64))] := rfl

/-- T-H16: reset while a command is in flight. -/
theorem test_port_reset_in_flight :
    after (step { inFlight 0x117 with agenda := [.reset], mem := abcMem })
      (fun t => (t.h, t.cmd, t.status.word, t.pend, t.mem)) = some (Vector.replicate 8 0, 0, 0, false, abcMem) := by decide

/-- A state whose registers all differ. -/
def portState : State :=
  { start with
    h := Vector.ofFn (fun i => BitVec.ofNat 64 (0x100 + i.val))
    v := Vector.ofFn (fun i => BitVec.ofNat 64 (0x200 + i.val))
    m := Vector.ofFn (fun i => BitVec.ofNat 64 (0x300 + i.val))
    t := 0x402 * 2 ^ 64 + 0x401, inAddr := 0x500, len := 0x600, cmd := 0x700
    status := { Status.reset with done := true } }

/-- `portState` while busy. -/
def portBusy : State := { portState with status := { Status.reset with busy := true }, pend := true }

/-! ### Witnesses: what the hypotheses of the statements are met by -/

theorem witness_EncodeOfDecodeIsTheWord : decode 0x437 = .ok (.drive true true 4) := by decide

/-- For IssueReportsTheFirstError, EveryWordDecodesOrIsRefused and StagesComposeToCompress: idle, and the block in range at
its last address. -/
theorem witness_IssueReportsTheFirstError :
    ({ start with inAddr := 3968 } : State).Idle ∧ (3968 : U64).toNat + 128 ≤ start.params.inSize :=
  ⟨⟨rfl, rfl⟩, by decide⟩

/-- One witness for each case of the error list (R241): no later line hides the one before it. -/
theorem witness_IssueReportsTheFirstError_cases :
    firstError 0x8 start = .illegalOpcode ∧ firstError 0x10 start = .illegalField ∧
    firstError 0x01000001 start = .illegalField ∧ firstError 0xC2 start = .illegalField ∧
    firstError 0x7 start = .illegalField ∧ firstError 0x3 { start with inAddr := 3969 } = .range ∧
    firstError 0x117 { start with inAddr := 1, len := 4096 } = .range ∧
    firstError 0x107 { start with len := 127 } = .contract ∧ firstError 0x107 { start with len := 128 } = .ok ∧
    firstError 0x0 start = .ok ∧ firstError 0x3 { start with inAddr := 3968 } = .ok := by decide

theorem witness_EveryWordDecodesOrIsRefused :
    decode 0xC2 = .ok (.round 12) ∧ (Instr.round 12).wellFormed = false ∧ decode 0x8 = .error .illegalOpcode := by decide

theorem witness_StepRunsTheDecodedCommand_engine :
    (inFlight 0x5).pend = true ∧ decode (inFlight 0x5).cmd = .ok .fold ∧ (inFlight 0x5).agenda = [] := by decide

theorem witness_StepRunsTheDecodedCommand_event :
    ({ inFlight 0x5 with agenda := [.engine] } : State).pend = true ∧
    decode ({ inFlight 0x5 with agenda := [.engine] } : State).cmd = .ok .fold ∧
    ({ inFlight 0x5 with agenda := [.engine] } : State).agenda = .engine :: [] := by decide

theorem witness_StepRunsTheDecodedCommand_issue :
    ({ start with agenda := [.host (.regWrite cmdIndex 0x5)] } : State).status.busy = false ∧
    decode 0x5 = .ok .fold ∧
    ({ start with agenda := [.host (.regWrite cmdIndex 0x5)] } : State).agenda = .host (.regWrite cmdIndex 0x5) :: [] := by
  decide

theorem witness_FetchWordRunsThatCommand : decode (BitVec.ofNat 64 (0x117 % 2 ^ 64)) = .ok (.drive true false 1) := by decide

theorem witness_CommandsRaiseTheirErrors_fields :
    slotsDistinct 0 4 8 0 = false ∧ (12 : Fin 16).val > 11 ∧ (15 : Fin 16).val > 11 := by decide

theorem witness_CommandsRaiseTheirErrors_ranges :
    ({ start with inAddr := 3969 } : State).inAddr.toNat + 128 > start.params.inSize ∧ (1 : Fin 16) ≠ 0 ∧
    (3969 : U64).toNat + (128 : U64).toNat > start.params.inSize := by decide

theorem witness_CommandsRaiseTheirErrors_contract :
    (1 : Fin 16) ≠ 0 ∧ (0 : U64).toNat + (127 : U64).toNat ≤ start.params.inSize ∧ start.params.contractMode = .fault ∧
    ((0 : U64).toNat = 0 ∨ (0 : U64).toNat - finalOffset (0 : U64).toNat 128 < 128) ∧
    ((127 : U64).toNat = 0 ∨ (127 : U64).toNat - finalOffset (127 : U64).toNat 128 < 128) := by decide

theorem witness_OnlyTheseCommandsWrite :
    ∃ t, exec .fold { start with v := (Vector.replicate 16 0).set 0 1 } = .next t ∧ t.h ≠ start.h := by
  refine ⟨_, rfl, ?_⟩
  decide

theorem witness_NopOnlyCompletes : start.Idle ∧ fieldNat 0x10 0 = 0 ∧ (0x10 : U64) ≠ 0 := ⟨⟨rfl, rfl⟩, by decide, by decide⟩

theorem witness_GMixesFourSlots : slotsDistinct 0 4 8 12 = true ∧ slotsDistinct 15 0 1 14 = true := by decide

theorem witness_RoundAppliesEightSteps : (0 : Fin 16).val < 12 ∧ (11 : Fin 16).val < 12 := by decide

/-- For LoadmParsesTheBlock and CompressComputesTheChainValue: the last block of IN. -/
theorem witness_LoadmParsesTheBlock : ({ start with inAddr := 3968 } : State).inAddr.toNat + 128 ≤ start.params.inSize := by
  decide

theorem witness_CompressIgnoresOldVAndM :
    ∃ s s' t t' : State, s.h = s'.h ∧ s.t = s'.t ∧ s.v ≠ s'.v ∧ s.inAddr.toNat + 128 ≤ s.params.inSize ∧
      s'.inAddr.toNat + 128 ≤ s'.params.inSize ∧
      (∀ j : Fin 128, s.mem.read (s.inAddr.toNat + j.val) = s'.mem.read (s'.inAddr.toNat + j.val)) ∧
      exec (.compress true false) s = .next t ∧ exec (.compress true false) s' = .next t' := by
  refine ⟨start, { start with v := Vector.replicate 16 1 }, _, _, rfl, rfl, by decide, by decide, by decide,
    fun _ => rfl, exec_of_issueError_none (by decide) (by decide), exec_of_issueError_none (by decide) (by decide)⟩

theorem witness_StagesComposeToCompress : start.Idle ∧ start.inAddr.toNat + 128 ≤ start.params.inSize :=
  ⟨⟨rfl, rfl⟩, by decide⟩

theorem witness_FinalOffsetIsGreatestMultiple :
    0 < 256 ∧ (256 ∣ 256 ∧ 256 ≤ 300 - 1) ∧ 1 ≤ 300 := by decide

theorem witness_TailLengthIsCapped : 1 ≤ 1 ∧ 1 ≤ 300 := by decide

/-- For DriveFoldsItsBlocks and DriveAdvancesTheCounter: final, and the whole of IN. -/
theorem witness_DriveFoldsItsBlocks_final :
    (15 : Fin 16) ≠ 0 ∧ ({ start with len := 4096 } : State).inAddr.toNat + (4096 : U64).toNat ≤ start.params.inSize := by
  decide

/-- Not final, with a full final block, at the shortest such length. -/
theorem witness_DriveFoldsItsBlocks_full :
    (1 : Fin 16) ≠ 0 ∧ (0 : U64).toNat + (128 : U64).toNat ≤ start.params.inSize ∧
    128 ≤ (128 : U64).toNat - finalOffset (128 : U64).toNat 128 := by decide

/-- Not final, in compute mode, on an empty input. -/
theorem witness_DriveFoldsItsBlocks_compute :
    ({ start with params := { inSize := 0, contractMode := .compute } } : State).params.contractMode = .compute ∧
    ({ start with params := { inSize := 0, contractMode := .compute } } : State).inAddr.toNat + start.len.toNat ≤ 0 := by
  decide

theorem witness_DriveOfNothingCompressesOneBlock :
    (1 : Fin 16) ≠ 0 ∧ ({ start with inAddr := 4096 } : State).len = 0 ∧
    ({ start with inAddr := 4096 } : State).inAddr.toNat ≤ start.params.inSize := by decide

theorem witness_DriveLoopEndsByItself :
    (2 : Fin 16) ≠ 0 ∧ finalOffset (300 : U64).toNat (128 * (2 : Fin 16).val) / (128 * (2 : Fin 16).val) + 1 ≤ 2 := by decide

theorem witness_DriveIsIncremental :
    0 < 128 ∧ 128 ∣ 128 ∧ 0 < 3968 ∧ 128 + 3968 < 2 ^ 64 ∧ start.inAddr.toNat + (128 + 3968) ≤ start.params.inSize ∧
    start.params.inSize ≤ 2 ^ 64 := by decide

theorem witness_GfunZeroFixedAndBijective :
    (Vector.replicate 16 (0 : U64))[0] = 0 ∧ slotsDistinct 0 4 8 12 = true := by decide

theorem witness_DisjointGfunsCommute :
    ∀ i ∈ ([0, 4, 8, 12] : List (Fin 16)), ∀ j ∈ ([1, 5, 9, 13] : List (Fin 16)), i ≠ j := by decide

theorem witness_HalfRoundStepsInAnyOrder :
    ([3, 2, 1, 0] : List (Fin 8)).Perm [0, 1, 2, 3] ∧ ([5, 4, 7, 6] : List (Fin 8)).Perm [4, 5, 6, 7] := by decide

theorem witness_SigmaRowsArePermutations : sigma[1][0] = 14 := by decide

/-- Every range of the read map at its two ends, idle (R221). -/
theorem witness_RegisterReadMap_idle :
    ([0x00, 0x07, 0x08, 0x17, 0x18, 0x27, 0x28, 0x29, 0x2A, 0x2B, 0x2C, 0x2D, 0x2E, 0x3F] : List (Fin 64)).map
        (fun i => after (hostRegRead i portState) (fun t => (t.answer, t.status.unm)))
      = [some (.word 0x100, false), some (.word 0x107, false), some (.word 0x200, false), some (.word 0x20F, false),
         some (.word 0x300, false), some (.word 0x30F, false), some (.word 0x401, false), some (.word 0x402, false),
         some (.word 0x500, false), some (.word 0x600, false), some (.word 0x700, false), some (.word 0x2, false),
         some (.word 0, true), some (.word 0, true)] := by decide +kernel

/-- The ends of the ranges while busy: IN_ADDR, LEN, CMD, STATUS and the reserved indices read exactly (R221, R227). -/
theorem witness_RegisterReadMap_busy :
    ([0x2A, 0x2B, 0x2C, 0x2D, 0x2E, 0x3F] : List (Fin 64)).map
        (fun i => after (hostRegRead i portBusy) (fun t => (t.answer, t.draws)))
      = [some (.word 0x500, 1), some (.word 0x600, 1), some (.word 0x700, 1), some (.word 0x1, 1), some (.word 0, 1),
         some (.word 0, 1)] ∧
    ([0x00, 0x07, 0x08, 0x17, 0x18, 0x27, 0x28, 0x29] : List (Fin 64)).map
        (fun i => after (hostRegRead i portBusy) (fun t => (t.status.word, t.draws))) = List.replicate 8 (some (0x1, 2)) := by
  decide +kernel

/-- Every range of the write map at its two ends, idle (R220): the register named takes the value. -/
theorem witness_RegisterWriteMap_idle :
    [after (hostRegWrite 0x00 9 portState) (fun t => t.h[0]), after (hostRegWrite 0x07 9 portState) (fun t => t.h[7]),
     after (hostRegWrite 0x08 9 portState) (fun t => t.v[0]), after (hostRegWrite 0x17 9 portState) (fun t => t.v[15]),
     after (hostRegWrite 0x18 9 portState) (fun t => t.m[0]), after (hostRegWrite 0x27 9 portState) (fun t => t.m[15]),
     after (hostRegWrite 0x28 9 portState) (fun t => low64 t.t), after (hostRegWrite 0x29 9 portState) (fun t => high64 t.t),
     after (hostRegWrite 0x2A 9 portState) (fun t => t.inAddr), after (hostRegWrite 0x2B 9 portState) (fun t => t.len),
     after (hostRegWrite 0x2C 9 portState) (fun t => t.cmd)] = List.replicate 11 (some 9) ∧
    ([0x2D, 0x2E, 0x3F] : List (Fin 64)).map (fun i => after (hostRegWrite i 0x2 portState) (fun t => t.status.word))
      = [some 0x0, some 0x202, some 0x202] := by decide +kernel

/-- The ends of the write map while busy (R220, R226). -/
theorem witness_RegisterWriteMap_busy :
    ([0x00, 0x2B, 0x2C, 0x2D, 0x2E, 0x3F] : List (Fin 64)).map
        (fun i => after (hostRegWrite i 0x2 portBusy) (fun t => t.status.word))
      = [some 0x101, some 0x101, some 0x101, some 0x1, some 0x201, some 0x201] := by decide +kernel

theorem witness_RegistersReadBackWhatWasWritten :
    ∃ r x, start.status.busy = false ∧ (0x2B : Fin 64).val < 0x2C ∧ (0x28 : Fin 64) ≠ 0x2B ∧
      hostRegRead 0x28 start = .next r ∧ r.answer = .word x :=
  ⟨_, _, rfl, by decide, by decide, rfl, rfl⟩

theorem witness_ReservedIndicesOnlySetUnm : 0x2E ≤ (0x2E : Fin 64).val ∧ 0x2E ≤ (0x3F : Fin 64).val := by decide

theorem witness_WritesWhileBusyAreDropped :
    (inFlight 0x117).status.busy = true ∧ (0x2C : Fin 64).val ≤ 0x2C ∧ (0 : Fin 64).val ≤ 0x2C := by decide

theorem witness_HostInAccess_inside :
    4095 < start.params.inSize ∧ start.status.busy = false ∧ start.mem.wf := by decide

theorem witness_HostInAccess_outside : start.params.inSize ≤ 4096 := by decide

theorem witness_WriteIntoReadRangeIsAHazard :
    ({ inFlight 0x117 with len := 300 } : State).status.busy = true ∧
    decode ({ inFlight 0x117 with len := 300 } : State).cmd = .ok (.drive true false 1) ∧
    299 < start.params.inSize ∧ 300 < start.params.inSize := by decide

theorem witness_HostCannotDisturbACommand :
    ∃ s' t t', (inFlight 0x16).InFlight ∧ decode (inFlight 0x16).cmd = .ok (.compress true false) ∧
      issueError (.compress true false) (inFlight 0x16) = none ∧ (inFlight 0x16).mem.wf ∧
      hostStep (.inWrite 128 7) (inFlight 0x16) = .next s' ∧ s'.mem ≠ (inFlight 0x16).mem ∧
      exec (.compress true false) (inFlight 0x16) = .next t ∧ exec (.compress true false) s' = .next t' := by
  refine ⟨{ inFlight 0x16 with mem := ⟨[(128, 7)]⟩ }, _, _, ⟨rfl, rfl⟩, by decide, by decide, by decide, rfl,
    by decide, exec_of_issueError_none (by decide) (by decide), exec_of_issueError_none (by decide) (by decide)⟩

theorem witness_RunEndsAtAnyLatency : ∃ t, start.Idle ∧ exec .fold start = .next t := ⟨_, ⟨rfl, rfl⟩, rfl⟩

theorem witness_CanonicalMemoriesReadingAlikeAreEqual : abcMem.wf ∧ (seqMem 300).wf := by decide +kernel

theorem witness_ResetAbandonsTheCommand :
    ({ inFlight 0x117 with agenda := [.reset] } : State).agenda = .reset :: [] := rfl

theorem witness_IdleKeepsAllState : start.pend = false ∧ start.agenda = [] := ⟨rfl, rfl⟩

/-- A state with a command in flight that meets the invariant and takes a step. -/
theorem witness_StepKeepsTheInvariant : ∃ t, (inFlight 0x5).Inv ∧ step (inFlight 0x5) = .next t :=
  ⟨_, { pend_eq_busy := rfl, busy_clear := fun _ => ⟨rfl, rfl⟩, in_flight := fun _ => ⟨.fold, by decide, by decide⟩,
        mem_wf := by decide, mem_inside := (by intro c hc; cases hc), size_bound := by decide }, rfl⟩

end Sys2Proof.Tests
end

section
/-! SUPPORT. Proofs about every command's end, every step's invariant and the mixer's rotations (00_scope.md). -/

namespace Sys2Proof.Machine

/-! ### How a command ends -/

/-- Everything a command can do: raise the error that applies, complete as NOP, or run its body and finish (R16, R223,
R224). -/
theorem exec_cases (i : Instr) (s : State) :
    (∃ e, issueError i s = some e ∧ exec i s = .next (s.raise e)) ∨
    (i = .nop ∧ exec i s = .next s.complete) ∨
    (i ≠ .nop ∧ issueError i s = none ∧ exec i s = .next (commandBody i s).finish) := by
  cases he : issueError i s with
  | some e => exact .inl ⟨e, rfl, exec_of_issueError_some he⟩
  | none =>
    by_cases hi : i = .nop
    · subst hi
      exact .inr (.inl ⟨rfl, exec_nop s⟩)
    · exact .inr (.inr ⟨hi, rfl, exec_of_issueError_none hi he⟩)

/-- Settles O8: each of the three ways a command can go answers a completed state. -/
theorem everyCommandEnds : Obligations.EveryCommandEnds := by
  intro i s
  obtain ⟨e, -, h⟩ | ⟨-, h⟩ | ⟨-, -, h⟩ := exec_cases i s
  · exact ⟨_, h, rfl, rfl, rfl⟩
  · exact ⟨_, h, rfl, rfl, rfl⟩
  · exact ⟨_, h, rfl, rfl, rfl⟩

/-- No command writes IN or the parameters (R11, R60). -/
theorem exec_mem_params {i : Instr} {s t : State} (h : exec i s = .next t) : t.mem = s.mem ∧ t.params = s.params := by
  obtain ⟨e, -, h'⟩ | ⟨-, h'⟩ | ⟨-, -, h'⟩ := exec_cases i s <;> cases h'.symm.trans h
  · exact ⟨rfl, rfl⟩
  · exact ⟨rfl, rfl⟩
  · exact ⟨commandBody_mem i s, commandBody_params i s⟩

/-! ### The rotations -/

/-- The two shifts of R13 rotate right, for every amount below the word's width. -/
theorem rotr64_eq_rotateRight (v : U64) {n : Nat} (hn : n < 64) : rotr64 v n = v.rotateRight n := by
  rw [BitVec.rotateRight_def, Nat.mod_eq_of_lt hn, rotr64]

/-- Settles O29: the four amounts are below 64, and a rotation right by 63 is the same two shifts in the other order. -/
theorem rotationsAreRotations : Obligations.RotationsAreRotations := fun v =>
  ⟨rotr64_eq_rotateRight v (by decide), rotr64_eq_rotateRight v (by decide), rotr64_eq_rotateRight v (by decide),
    rotr64_eq_rotateRight v (by decide), BitVec.or_comm _ _⟩

/-! ### The invariant: what it needs of a state -/

/-- Whether a command completes at issue depends on its fields, IN_ADDR, LEN and the parameters only (R222). -/
theorem completesAtIssue_congr (i : Instr) {s t : State} (h1 : t.inAddr = s.inAddr) (h2 : t.len = s.len)
    (h3 : t.params = s.params) : completesAtIssue i t = completesAtIssue i s := by
  unfold completesAtIssue
  rw [issueError_congr h1 h2 h3]

/-- `t` has the same command in flight as `s`, or like `s` none, and a DONE that is 0 stays 0: what a host operation
other than an accepted register write does (R226 to R228). -/
structure KeepsFlight (s t : State) : Prop where
  pend : t.pend = s.pend := by rfl
  busy : t.status.busy = s.status.busy := by rfl
  done : s.status.done = false → t.status.done = false := by exact id
  err : t.status.err = s.status.err := by rfl
  cmd : t.cmd = s.cmd := by rfl
  inAddr : t.inAddr = s.inAddr := by rfl
  len : t.len = s.len := by rfl
  params : t.params = s.params := by rfl

namespace State.Inv
variable {s t : State}

/-- An idle state with the IN and the parameters of a state that meets the invariant meets it. -/
theorem of_idle (h : s.Inv) (hbusy : t.status.busy = false) (hpend : t.pend = false) (hmem : t.mem = s.mem)
    (hparams : t.params = s.params) : t.Inv where
  pend_eq_busy := hpend.trans hbusy.symm
  busy_clear hb := by simp [hbusy] at hb
  in_flight hp := by simp [hpend] at hp
  mem_wf := hmem ▸ h.mem_wf
  mem_inside := by rw [hmem, hparams]; exact h.mem_inside
  size_bound := hparams ▸ h.size_bound

/-- What keeps the command in flight, and IN canonical and inside P_IN_SIZE, keeps the invariant. -/
theorem of_keepsFlight (h : s.Inv) (k : KeepsFlight s t) (hwf : t.mem.wf)
    (hinside : ∀ c ∈ t.mem.cells, c.1 < s.params.inSize) : t.Inv where
  pend_eq_busy := by rw [k.pend, k.busy, h.pend_eq_busy]
  busy_clear hb := by
    obtain ⟨hdone, herr⟩ := h.busy_clear (k.busy ▸ hb)
    exact ⟨k.done hdone, k.err.trans herr⟩
  in_flight hp := by
    obtain ⟨i, hi, hc⟩ := h.in_flight (k.pend ▸ hp)
    exact ⟨i, k.cmd ▸ hi, (completesAtIssue_congr i k.inAddr k.len k.params).trans hc⟩
  mem_wf := hwf
  mem_inside := by rw [k.params]; exact hinside
  size_bound := k.params ▸ h.size_bound

theorem pend_of_idle (h : s.Inv) (hb : s.status.busy = false) : s.pend = false := h.pend_eq_busy.trans hb

/-! ### The invariant: each operation on the state keeps it -/

theorem setAgenda (h : s.Inv) (x : List Event) : (s.setAgenda x).Inv := h.of_keepsFlight {} h.mem_wf h.mem_inside

theorem setAnswer (h : s.Inv) (x : Answer) : (s.setAnswer x).Inv := h.of_keepsFlight {} h.mem_wf h.mem_inside

theorem setDraws (h : s.Inv) (x : Nat) : (s.setDraws x).Inv := h.of_keepsFlight {} h.mem_wf h.mem_inside

theorem markUnm (h : s.Inv) : s.markUnm.Inv := h.of_keepsFlight {} h.mem_wf h.mem_inside

theorem markWrb (h : s.Inv) : s.markWrb.Inv := h.of_keepsFlight {} h.mem_wf h.mem_inside

/-- A write to STATUS can clear DONE and cannot set it (R225). -/
theorem writeOneClears (h : s.Inv) (v : U64) : (s.setStatus (s.status.writeOneClears v)).Inv :=
  h.of_keepsFlight { done := fun hd => by simp [Status.writeOneClears, hd] } h.mem_wf h.mem_inside

/-- A host write of a byte of IN keeps IN canonical and inside P_IN_SIZE (R65). -/
theorem setMem_write (h : s.Inv) {a : Nat} (ha : a < s.params.inSize) (v : Byte) :
    (s.setMem (s.mem.write a v)).Inv :=
  h.of_keepsFlight {} (Memory.write_wf h.mem_wf a v) (Memory.write_inside h.mem_inside ha)

theorem readData (h : s.Inv) (x : U64) : (s.readData x).Inv := by
  unfold State.readData
  split
  · exact (h.setAnswer _).setDraws _
  · exact h.setAnswer _

theorem raise (h : s.Inv) (e : ErrCode) : (s.raise e).Inv := h.of_idle rfl rfl rfl rfl

theorem capture (h : s.Inv) (hb : s.status.busy = false) (w : U64) : (s.capture w).Inv :=
  h.of_idle hb (h.pend_of_idle hb) rfl rfl

theorem resetState (h : s.Inv) : (Machine.resetState s).Inv := h.of_idle rfl rfl rfl rfl

/-- A captured command that does not complete at issue goes in flight (R222). -/
theorem begin_capture (h : s.Inv) {w : U64} {i : Instr} (hi : decode w = .ok i)
    (hc : completesAtIssue i (s.capture w) = false) : (s.capture w).begin.Inv where
  pend_eq_busy := rfl
  busy_clear _ := ⟨rfl, rfl⟩
  in_flight _ :=
    have hcongr : completesAtIssue i (s.capture w).begin = completesAtIssue i (s.capture w) :=
      completesAtIssue_congr i rfl rfl rfl
    ⟨i, hi, hcongr.trans hc⟩
  mem_wf := h.mem_wf
  mem_inside := h.mem_inside
  size_bound := h.size_bound

end State.Inv

/-! ### The invariant: each part of a step keeps it -/

section Step
variable {s t : State}

/-- A command ends idle and writes neither IN nor the parameters. -/
theorem exec_keeps_inv (h : s.Inv) {i : Instr} (ht : exec i s = .next t) : t.Inv := by
  obtain ⟨t', ht', hbusy, -, hpend⟩ := everyCommandEnds i s
  cases ht'.symm.trans ht
  exact h.of_idle hbusy hpend (exec_mem_params ht).1 (exec_mem_params ht).2

theorem issue_keeps_inv (h : s.Inv) (hb : s.status.busy = false) {w : U64} (ht : issue w s = .next t) : t.Inv := by
  unfold issue at ht
  split at ht
  · cases ht
    exact (h.capture hb w).raise _
  next i hi =>
    split at ht
    · exact exec_keeps_inv (h.capture hb w) ht
    next hc =>
      cases ht
      exact h.begin_capture hi (Bool.eq_false_of_not_eq_true hc)

/-- A write that BUSY drops sets WRB only (R226), so an accepted write need only keep the invariant from an idle
state. -/
theorem whenIdle_keeps_inv (h : s.Inv) {o : Outcome} (ho : s.status.busy = false → o = .next t → t.Inv)
    (ht : whenIdle s o = .next t) : t.Inv := by
  unfold whenIdle at ht
  split at ht
  · cases ht
    exact h.markWrb
  next hb => exact ho (Bool.eq_false_of_not_eq_true hb) ht

/-- A write to a data register, accepted only while idle, keeps the invariant (R220). -/
theorem whenIdle_data_keeps_inv (h : s.Inv) {u : State} (ht : whenIdle s (.next u) = .next t)
    (hstatus : u.status = s.status) (hpend : u.pend = s.pend) (hmem : u.mem = s.mem) (hparams : u.params = s.params) :
    t.Inv := by
  refine whenIdle_keeps_inv h (fun hb hu => ?_) ht
  cases hu
  exact h.of_idle (hstatus ▸ hb) (hpend.trans (h.pend_of_idle hb)) hmem hparams

theorem hostRegWrite_keeps_inv (h : s.Inv) {idx : Fin 64} {v : U64} (ht : hostRegWrite idx v s = .next t) : t.Inv := by
  unfold hostRegWrite at ht
  cases hp : portReg idx <;> rw [hp] at ht
  case reserved => cases ht; exact h.markUnm
  case status => cases ht; exact h.writeOneClears v
  case cmd => exact whenIdle_keeps_inv h (fun hb => issue_keeps_inv h hb) ht
  all_goals exact whenIdle_data_keeps_inv h ht rfl rfl rfl rfl

theorem hostRegRead_keeps_inv (h : s.Inv) {idx : Fin 64} (ht : hostRegRead idx s = .next t) : t.Inv := by
  unfold hostRegRead at ht
  cases hp : portReg idx <;> rw [hp] at ht <;> cases ht
  case reserved => exact h.markUnm.setAnswer _
  case status | cmd | inAddr | len => exact h.setAnswer _
  case h | v | m | tLo | tHi => exact h.readData _

theorem hostInWrite_keeps_inv (h : s.Inv) {a : Nat} {v : Byte} (ht : hostInWrite a v s = .next t) : t.Inv := by
  unfold hostInWrite at ht
  split at ht
  next ha =>
    split at ht
    · cases ht
    · cases ht
      exact h.setMem_write ha v
  · cases ht

theorem hostInRead_keeps_inv (h : s.Inv) {a : Nat} (ht : hostInRead a s = .next t) : t.Inv := by
  unfold hostInRead at ht
  split at ht
  · cases ht
    exact h.setAnswer _
  · cases ht

theorem hostStep_keeps_inv (h : s.Inv) {op : HostOp} (ht : hostStep op s = .next t) : t.Inv := by
  cases op with
  | regWrite idx v => exact hostRegWrite_keeps_inv (h.setAnswer .none) ht
  | regRead idx => exact hostRegRead_keeps_inv h ht
  | inWrite a v => exact hostInWrite_keeps_inv (h.setAnswer .none) ht
  | inRead a => exact hostInRead_keeps_inv h ht

theorem engineStep_keeps_inv (h : s.Inv) (ht : engineStep s = .next t) : t.Inv := by
  unfold engineStep at ht
  split at ht
  · split at ht
    · exact exec_keeps_inv h ht
    · cases ht
      exact h.raise _
  · cases ht
    exact h

theorem eventStep_keeps_inv (h : s.Inv) {e : Event} (ht : eventStep e s = .next t) : t.Inv := by
  cases e with
  | host op => exact hostStep_keeps_inv h ht
  | engine => exact engineStep_keeps_inv h ht
  | reset =>
    cases ht
    exact h.resetState

end Step

/-- Settles O53: a step is the engine's turn or the next event of the agenda, and both keep the invariant. -/
theorem stepKeepsTheInvariant : Obligations.StepKeepsTheInvariant := by
  intro s t h ht
  unfold step nextEvent at ht
  split at ht
  · exact engineStep_keeps_inv h ht
  next e rest _ => exact eventStep_keeps_inv (h.setAgenda rest) ht

end Sys2Proof.Machine
end

section
/-! SUPPORT. Proofs about the state: which commands write which registers, the register port, STATUS and reset
(10_state.md). -/

namespace Sys2Proof.Machine

/-! ### Which commands write which registers (R21 to R28) -/

section Writers
variable {i : Instr} {s t : State}

/-- H is written by FOLD, COMPRESS and DRIVE only (R21). -/
theorem writer_of_commandBody_h_ne (h : (commandBody i s).h ≠ s.h) :
    i = .fold ∨ (∃ f0 f1, i = .compress f0 f1) ∨ ∃ fin ln k, i = .drive fin ln k := by
  cases i with
  | fold => exact .inl rfl
  | compress f0 f1 => exact .inr (.inl ⟨f0, f1, rfl⟩)
  | drive fin ln k => exact .inr (.inr ⟨fin, ln, k, rfl⟩)
  | round r => exact absurd (by rw [commandBody, roundBody_eq, State.setV_h]) h
  | nop | g | loadm | init => exact absurd rfl h

/-- V is written by G, ROUND, INIT, COMPRESS and DRIVE only (R22). -/
theorem writer_of_commandBody_v_ne (h : (commandBody i s).v ≠ s.v) :
    (∃ a b c d mx my, i = .g a b c d mx my) ∨ (∃ r, i = .round r) ∨ (∃ f0 f1, i = .init f0 f1) ∨
      (∃ f0 f1, i = .compress f0 f1) ∨ ∃ fin ln k, i = .drive fin ln k := by
  cases i with
  | g a b c d mx my => exact .inl ⟨a, b, c, d, mx, my, rfl⟩
  | round r => exact .inr (.inl ⟨r, rfl⟩)
  | init f0 f1 => exact .inr (.inr (.inl ⟨f0, f1, rfl⟩))
  | compress f0 f1 => exact .inr (.inr (.inr (.inl ⟨f0, f1, rfl⟩)))
  | drive fin ln k => exact .inr (.inr (.inr (.inr ⟨fin, ln, k, rfl⟩)))
  | nop | loadm | fold => exact absurd rfl h

/-- M is written by LOADM, COMPRESS and DRIVE only (R23). -/
theorem writer_of_commandBody_m_ne (h : (commandBody i s).m ≠ s.m) :
    i = .loadm ∨ (∃ f0 f1, i = .compress f0 f1) ∨ ∃ fin ln k, i = .drive fin ln k := by
  cases i with
  | loadm => exact .inl rfl
  | compress f0 f1 => exact .inr (.inl ⟨f0, f1, rfl⟩)
  | drive fin ln k => exact .inr (.inr ⟨fin, ln, k, rfl⟩)
  | round r => exact absurd (by rw [commandBody, roundBody_eq, State.setV_m]) h
  | nop | g | init | fold => exact absurd rfl h

/-- T is written by DRIVE only (R24). -/
theorem writer_of_commandBody_t_ne (h : (commandBody i s).t ≠ s.t) : ∃ fin ln k, i = .drive fin ln k := by
  cases i with
  | drive fin ln k => exact ⟨fin, ln, k, rfl⟩
  | round r => exact absurd (by rw [commandBody, roundBody_eq, State.setV_t]) h
  | compress f0 f1 => exact absurd (compressBlock_t _ f0 f1 s) h
  | nop | g | loadm | init | fold => exact absurd rfl h

/-- H, V, M and T after a command are as before it, or as its body leaves them. -/
theorem exec_data_cases (h : exec i s = .next t) :
    (t.h = s.h ∧ t.v = s.v ∧ t.m = s.m ∧ t.t = s.t) ∨
    (t.h = (commandBody i s).h ∧ t.v = (commandBody i s).v ∧ t.m = (commandBody i s).m ∧ t.t = (commandBody i s).t) := by
  obtain ⟨e, -, h'⟩ | ⟨-, h'⟩ | ⟨-, -, h'⟩ := exec_cases i s <;> cases h'.symm.trans h
  · exact .inl ⟨rfl, rfl, rfl, rfl⟩
  · exact .inl ⟨rfl, rfl, rfl, rfl⟩
  · exact .inr ⟨rfl, rfl, rfl, rfl⟩

/-- No command writes IN_ADDR, LEN, CMD, WRB or UNM (R26 to R28, R243), nor the model's agenda and answer. -/
theorem exec_kept (h : exec i s = .next t) :
    t.inAddr = s.inAddr ∧ t.len = s.len ∧ t.cmd = s.cmd ∧ t.status.wrb = s.status.wrb ∧ t.status.unm = s.status.unm ∧
    t.agenda = s.agenda ∧ t.answer = s.answer := by
  obtain ⟨e, -, h'⟩ | ⟨-, h'⟩ | ⟨-, -, h'⟩ := exec_cases i s <;> cases h'.symm.trans h
  · exact ⟨rfl, rfl, rfl, rfl, rfl, rfl, rfl⟩
  · exact ⟨rfl, rfl, rfl, rfl, rfl, rfl, rfl⟩
  · simp

end Writers

/-- Settles O10: a data register that differs after a command differs after the command's body, whose writers are known
for each register. -/
theorem onlyTheseCommandsWrite : Obligations.OnlyTheseCommandsWrite := by
  intro i s t h
  obtain ⟨hmem, hparams⟩ := exec_mem_params h
  obtain ⟨hinAddr, hlen, hcmd, hwrb, hunm, hagenda, hanswer⟩ := exec_kept h
  refine ⟨hinAddr, hlen, hcmd, fun a => by rw [hmem], hwrb, hunm, hparams, hagenda, hanswer, ?_⟩
  obtain ⟨hh, hv, hm, ht⟩ | ⟨hh, hv, hm, ht⟩ := exec_data_cases h
  · exact ⟨(absurd hh ·), (absurd hv ·), (absurd hm ·), (absurd ht ·)⟩
  · rw [hh, hv, hm, ht]
    exact ⟨writer_of_commandBody_h_ne, writer_of_commandBody_v_ne, writer_of_commandBody_m_ne,
      writer_of_commandBody_t_ne⟩

/-! ### The halves of the counter (R14, R24) -/

theorem joinHalves_toNat (hi lo : U64) : (joinHalves hi lo).toNat = hi.toNat * 2 ^ 64 + lo.toNat := by
  rw [joinHalves, BitVec.toNat_append, ← Nat.shiftLeft_add_eq_or_of_lt lo.isLt, Nat.shiftLeft_eq]

theorem low64_toNat (t : U128) : (low64 t).toNat = t.toNat % 2 ^ 64 := by
  rw [low64, BitVec.extractLsb'_toNat, Nat.shiftRight_zero]

theorem high64_toNat (t : U128) : (high64 t).toNat = t.toNat / 2 ^ 64 := by
  rw [high64, BitVec.extractLsb'_toNat, Nat.shiftRight_eq_div_pow]
  have := t.isLt
  omega

@[simp] theorem low64_joinHalves (hi lo : U64) : low64 (joinHalves hi lo) = lo := by
  refine BitVec.eq_of_toNat_eq ?_
  have := lo.isLt
  rw [low64_toNat, joinHalves_toNat]
  omega

@[simp] theorem high64_joinHalves (hi lo : U64) : high64 (joinHalves hi lo) = hi := by
  refine BitVec.eq_of_toNat_eq ?_
  have := lo.isLt
  rw [high64_toNat, joinHalves_toNat]
  omega

/-! ### The register port: reads and accepted writes (R30, R220, R221) -/

/-- The index of a register in the port map (R30); the reserved indices count as the first of them. -/
def PortReg.index : PortReg → Nat
  | .h i => i.val
  | .v i => 0x08 + i.val
  | .m i => 0x18 + i.val
  | .tLo => 0x28
  | .tHi => 0x29
  | .inAddr => 0x2A
  | .len => 0x2B
  | .cmd => 0x2C
  | .status => 0x2D
  | .reserved => 0x2E

/-- `PortReg.index` inverts the port map below the reserved indices. -/
theorem index_portReg (idx : Fin 64) : (portReg idx).index = min idx.val 0x2E := by
  revert idx
  decide

theorem portReg_of_reserved {idx : Fin 64} (h : 0x2E ≤ idx.val) : portReg idx = .reserved := by
  revert idx
  decide

/-- Below the reserved indices no two indices name one register (R30). -/
theorem portReg_ne {idx other : Fin 64} (hidx : idx.val < 0x2E) (h : other ≠ idx) : portReg other ≠ portReg idx := by
  intro heq
  have hmin : min other.val 0x2E = min idx.val 0x2E := by rw [← index_portReg, ← index_portReg, heq]
  exact h (Fin.ext (by omega))

/-- The word that a read of a port register returns while idle (R221). -/
def State.readReg (s : State) : PortReg → U64
  | .h i => s.h[i]
  | .v i => s.v[i]
  | .m i => s.m[i]
  | .tLo => low64 s.t
  | .tHi => high64 s.t
  | .inAddr => s.inAddr
  | .len => s.len
  | .cmd => s.cmd
  | .status => s.status.word
  | .reserved => 0

/-- What an accepted write does to a data register (R220). CMD, STATUS and the reserved indices, which are no plain
storage (R31), stand for no change here. -/
def State.writeReg (s : State) (p : PortReg) (x : U64) : State :=
  match p with
  | .h i => s.setH (s.h.set i x)
  | .v i => s.setV (s.v.set i x)
  | .m i => s.setM (s.m.set i x)
  | .tLo => s.setT (joinHalves (high64 s.t) x)
  | .tHi => s.setT (joinHalves x (low64 s.t))
  | .inAddr => s.setInAddr x
  | .len => s.setLen x
  | .cmd | .status | .reserved => s

section Port
variable {s : State}

/-- While idle every read of the port is a step, and returns `State.readReg`. -/
theorem hostRegRead_of_idle (hb : s.status.busy = false) (idx : Fin 64) :
    ∃ r, hostRegRead idx s = .next r ∧ r.answer = .word (s.readReg (portReg idx)) := by
  unfold hostRegRead
  cases portReg idx <;> simp [State.readReg, State.readData, hb]

/-- While idle a write to a data register is accepted, and is `State.writeReg`. -/
theorem hostRegWrite_of_idle (hb : s.status.busy = false) {idx : Fin 64} (hidx : idx.val < 0x2C) (x : U64) :
    hostRegWrite idx x s = .next (s.writeReg (portReg idx) x) := by
  have hindex := index_portReg idx
  unfold hostRegWrite
  cases hp : portReg idx <;> rw [hp] at hindex
  case cmd | status | reserved => simp only [PortReg.index] at hindex; omega
  all_goals simp [whenIdle, hb, State.writeReg]

@[simp] theorem State.writeReg_status (p : PortReg) (x : U64) : (s.writeReg p x).status = s.status := by
  cases p <;> rfl

theorem State.readReg_writeReg_same {p : PortReg} (hp : p.index < 0x2C) (x : U64) : (s.writeReg p x).readReg p = x := by
  cases p with
  | h i | v i | m i => exact Vector.getElem_set_self i.isLt
  | tLo => exact low64_joinHalves _ _
  | tHi => exact high64_joinHalves _ _
  | inAddr | len => rfl
  | cmd | status | reserved => simp [PortReg.index] at hp

/-- A write to one data register leaves the word of every other register: the two share storage only if both are words
of one vector or halves of T. -/
theorem State.readReg_writeReg_other {p q : PortReg} (h : q ≠ p) (x : U64) : (s.writeReg p x).readReg q = s.readReg q := by
  cases p with
  | h i =>
    cases q
    case h j => exact Vector.getElem_set_ne i.isLt j.isLt fun e => h (by rw [Fin.ext e])
    all_goals rfl
  | v i =>
    cases q
    case v j => exact Vector.getElem_set_ne i.isLt j.isLt fun e => h (by rw [Fin.ext e])
    all_goals rfl
  | m i =>
    cases q
    case m j => exact Vector.getElem_set_ne i.isLt j.isLt fun e => h (by rw [Fin.ext e])
    all_goals rfl
  | tLo =>
    cases q
    case tLo => exact absurd rfl h
    case tHi => exact high64_joinHalves _ _
    all_goals rfl
  | tHi =>
    cases q
    case tHi => exact absurd rfl h
    case tLo => exact low64_joinHalves _ _
    all_goals rfl
  | inAddr =>
    cases q
    case inAddr => exact absurd rfl h
    all_goals rfl
  | len =>
    cases q
    case len => exact absurd rfl h
    all_goals rfl
  | cmd | status | reserved => rfl

end Port

/-- Settles O38: the write is `State.writeReg`, the reads are `State.readReg`, and no other index names the register
written. -/
theorem registersReadBackWhatWasWritten : Obligations.RegistersReadBackWhatWasWritten := by
  intro idx other x y s r hb hidx hne hr hy
  obtain ⟨r', hr', hy'⟩ := hostRegRead_of_idle hb other
  cases hr'.symm.trans hr
  cases hy'.symm.trans hy
  have hbt : (s.writeReg (portReg idx) x).status.busy = false := by rw [State.writeReg_status, hb]
  obtain ⟨u, hu, hux⟩ := hostRegRead_of_idle hbt idx
  obtain ⟨w, hw, hwy⟩ := hostRegRead_of_idle hbt other
  rw [State.readReg_writeReg_same (by rw [index_portReg]; omega)] at hux
  rw [State.readReg_writeReg_other (portReg_ne (by omega) hne)] at hwy
  exact ⟨_, u, w, hostRegWrite_of_idle hb hidx x, hu, hux, hw, hwy⟩

/-- Settles O39: each write joins the new half to the old other half. -/
theorem counterHalvesAreWrittenApart : Obligations.CounterHalvesAreWrittenApart := by
  intro x s hb
  refine ⟨⟨_, hostRegWrite_of_idle hb (by decide) x, ?_⟩, ⟨_, hostRegWrite_of_idle hb (by decide) x, ?_⟩⟩
  · change (joinHalves (high64 s.t) x).toNat = _
    rw [joinHalves_toNat, high64_toNat]
  · change (joinHalves x (low64 s.t)).toNat = _
    rw [joinHalves_toNat, low64_toNat]

/-- Settles O40: these indices name no register, and then the port only sets UNM and answers 0. -/
theorem reservedIndicesOnlySetUnm : Obligations.ReservedIndicesOnlySetUnm := by
  intro idx x s h
  have hp := portReg_of_reserved h
  constructor
  · rw [hostRegWrite, hp]
    rfl
  · rw [hostRegRead, hp]
    rfl

/-! ### STATUS (R29, R240) -/

theorem errNumber_le_four (e : ErrCode) : errNumber e ≤ 4 := by
  cases e <;> decide

/-- The fields of the STATUS word do not overlap: their sum is the word. -/
theorem Status.word_toNat (x : Status) :
    x.word.toNat = x.busy.toNat + 2 * x.done.toNat + 16 * errNumber x.err + 256 * x.wrb.toNat + 512 * x.unm.toNat := by
  obtain ⟨busy, done, err, wrb, unm⟩ := x
  cases err <;> revert busy done wrb unm <;> decide

/-- A bit of a word, read off the word's number (R12). -/
theorem getLsbD_of_toNat {w : U64} {i : Nat} {b : Bool} (h : w.toNat / 2 ^ i % 2 = b.toNat) : w.getLsbD i = b := by
  rw [← BitVec.testBit_toNat, Nat.testBit_eq_decide_div_mod_eq, h]
  cases b <;> rfl

/-- Settles O42: every bit is read off the sum of the fields. -/
theorem statusWordLayout : Obligations.StatusWordLayout := by
  intro x
  have hword := x.word_toNat
  have hbusy := x.busy.toNat_le
  have hdone := x.done.toNat_le
  have herr := errNumber_le_four x.err
  have hwrb := x.wrb.toNat_le
  have hunm := x.unm.toNat_le
  refine ⟨getLsbD_of_toNat (by omega), getLsbD_of_toNat (by omega), by omega, herr, getLsbD_of_toNat (by omega),
    getLsbD_of_toNat (by omega), fun i hi => ?_⟩
  obtain rfl | rfl | hi := hi
  · exact getLsbD_of_toNat (b := false) (by simp only [Bool.toNat_false]; omega)
  · exact getLsbD_of_toNat (b := false) (by simp only [Bool.toNat_false]; omega)
  · rw [← BitVec.testBit_toNat]
    exact Nat.testBit_lt_two_pow (lt_of_lt_of_le (by omega) (Nat.pow_le_pow_right (by decide) hi))

/-! ### Reset (R37) -/

/-- Settles O49: each register is reset to 0, and a STATUS with every field 0 is the word 0. -/
theorem resetValues : Obligations.ResetValues :=
  ⟨rfl, rfl, rfl, rfl, rfl, rfl, rfl, by decide, rfl⟩

/-- Settles O52: nothing is in flight after reset, and IN lists no byte. -/
theorem invariantHoldsAtReset : Obligations.InvariantHoldsAtReset where
  pend_eq_busy := rfl
  busy_clear hb := by cases hb
  in_flight hp := by cases hp
  mem_wf := Memory.reset_wf
  mem_inside c hc := by cases hc
  size_bound := by decide

end Sys2Proof.Machine
end

section
/-! SUPPORT. Proofs about the IN byte space: the host's accesses, the canonical form, and that no host operation can
disturb the command in flight (20_memory.md). -/

namespace Sys2Proof.Machine

/-! ### A canonical content of IN is what it reads as (R60) -/

section Canonical
variable {l l' : List Host.Cell}

/-- An address that does not read as unlisted has its cell. -/
theorem mem_of_lookupCell_ne {a : Nat} (h : lookupCell a l ≠ Memory.unlisted) : (a, lookupCell a l) ∈ l := by
  induction l with
  | nil => exact absurd rfl h
  | cons d rest ih =>
    rw [lookupCell] at h ⊢
    split at h
    next hd => subst hd; simp
    next hd => rw [if_neg hd]; exact List.mem_cons_of_mem _ (ih h)

/-- With addresses rising, a cell's address reads as the cell's byte. -/
theorem lookupCell_of_mem (h : l.Pairwise (fun c c' => c.1 < c'.1)) {c : Host.Cell} (hc : c ∈ l) :
    lookupCell c.1 l = c.2 := by
  induction l with
  | nil => cases hc
  | cons d rest ih =>
    obtain ⟨hd, hrest⟩ := List.pairwise_cons.1 h
    rw [lookupCell]
    obtain rfl | hc := List.mem_cons.1 hc
    · exact if_pos rfl
    · rw [if_neg (hd c hc).ne, ih hrest hc]

end Canonical

/-- The cells of a canonical content of IN, read off what it reads as: a cell for every address that reads as its byte
and not as unlisted. -/
theorem Memory.mem_cells_iff {m : Memory} (h : m.wf) (c : Host.Cell) :
    c ∈ m.cells ↔ m.read c.1 = c.2 ∧ c.2 ≠ Memory.unlisted := by
  constructor
  · exact fun hc => ⟨lookupCell_of_mem h.1 hc, h.2 c hc⟩
  · rintro ⟨hread, hne⟩
    have hmem := mem_of_lookupCell_ne (l := m.cells) (a := c.1) (by rwa [← Memory.read, hread])
    rwa [← Memory.read, hread] at hmem

/-- Settles O48: the two lists of cells rise and have the same members. -/
theorem canonicalMemoriesReadingAlikeAreEqual : Obligations.CanonicalMemoriesReadingAlikeAreEqual := by
  intro m m' hm hm' hread
  have hcells (c : Host.Cell) : c ∈ m.cells ↔ c ∈ m'.cells := by
    rw [Memory.mem_cells_iff hm, Memory.mem_cells_iff hm', hread]
  have hirrefl : Std.Irrefl fun c c' : Host.Cell => c.1 < c'.1 := ⟨fun c => Nat.lt_irrefl c.1⟩
  have hantisymm : Std.Antisymm fun c c' : Host.Cell => c.1 < c'.1 := ⟨fun _ _ h h' => absurd h' h.asymm⟩
  exact congrArg Memory.mk (hm.1.eq_of_mem_iff hm'.1 hcells)

/-! ### The host's accesses to IN (R65) -/

section HostAccess
variable {a : Nat} {s : State}

theorem hostInWrite_of_outside (h : s.params.inSize ≤ a) (v : Byte) : hostInWrite a v s = .fault (.inOutside a) :=
  if_neg h.not_gt

theorem hostInWrite_of_idle (h : a < s.params.inSize) (hb : s.status.busy = false) (v : Byte) :
    hostInWrite a v s = .next (s.setMem (s.mem.write a v)) := by
  simp [hostInWrite, h, hb]

theorem hostInRead_of_inside (h : a < s.params.inSize) :
    hostInRead a s = .next (s.setAnswer (.byte (s.mem.read a))) := if_pos h

theorem hostInRead_of_outside (h : s.params.inSize ≤ a) : hostInRead a s = .fault (.inOutside a) := if_neg h.not_gt

/-- A write that is a step writes the byte; if the engine is busy, it is not in the read range (R293). -/
theorem hostInWrite_next {v : Byte} {t : State} (h : hostInWrite a v s = .next t) :
    t = s.setMem (s.mem.write a v) ∧ (s.status.busy = true → inReadRange s a = false) := by
  unfold hostInWrite at h
  split at h
  · split at h
    · cases h
    next hr =>
      cases h
      exact ⟨rfl, fun hb => by simpa [hb] using hr⟩
  · cases h

theorem hostInRead_next {t : State} (h : hostInRead a s = .next t) : t = s.setAnswer (.byte (s.mem.read a)) := by
  unfold hostInRead at h
  split at h
  · cases h
    rfl
  · cases h

end HostAccess

/-- Settles O44: inside IN the write is `Memory.write`, which keeps the canonical form; outside IN both accesses are
stuck. -/
theorem hostInAccess : Obligations.HostInAccess := by
  intro a v s
  refine ⟨fun ha hb hwf => ?_, hostInRead_of_inside, fun ha => ⟨hostInWrite_of_outside ha v, hostInRead_of_outside ha⟩⟩
  exact ⟨_, hostInWrite_of_idle ha hb v, rfl, Memory.write_wf hwf a v, fun b => Memory.read_write hwf a b v⟩

/-! ### What a host operation changes while a command is in flight (R226 to R228) -/

/-- `s` with what a host operation can change while the engine is busy taken from `u`. -/
def State.withHostSide (s u : State) : State :=
  { s with status := u.status, mem := u.mem, answer := u.answer, draws := u.draws }

section WithHostSide
variable (s u : State)

@[simp] theorem State.withHostSide_h : (s.withHostSide u).h = s.h := rfl
@[simp] theorem State.withHostSide_v : (s.withHostSide u).v = s.v := rfl
@[simp] theorem State.withHostSide_m : (s.withHostSide u).m = s.m := rfl
@[simp] theorem State.withHostSide_t : (s.withHostSide u).t = s.t := rfl
@[simp] theorem State.withHostSide_inAddr : (s.withHostSide u).inAddr = s.inAddr := rfl
@[simp] theorem State.withHostSide_len : (s.withHostSide u).len = s.len := rfl
@[simp] theorem State.withHostSide_cmd : (s.withHostSide u).cmd = s.cmd := rfl
@[simp] theorem State.withHostSide_pend : (s.withHostSide u).pend = s.pend := rfl
@[simp] theorem State.withHostSide_hidden : (s.withHostSide u).hidden = s.hidden := rfl
@[simp] theorem State.withHostSide_params : (s.withHostSide u).params = s.params := rfl
@[simp] theorem State.withHostSide_agenda : (s.withHostSide u).agenda = s.agenda := rfl
@[simp] theorem State.withHostSide_status : (s.withHostSide u).status = u.status := rfl
@[simp] theorem State.withHostSide_mem : (s.withHostSide u).mem = u.mem := rfl
@[simp] theorem State.withHostSide_answer : (s.withHostSide u).answer = u.answer := rfl
@[simp] theorem State.withHostSide_draws : (s.withHostSide u).draws = u.draws := rfl

@[simp] theorem State.setH_withHostSide (x : Vector U64 8) :
    (s.withHostSide u).setH x = (s.setH x).withHostSide u := rfl
@[simp] theorem State.setV_withHostSide (x : Vector U64 16) :
    (s.withHostSide u).setV x = (s.setV x).withHostSide u := rfl
@[simp] theorem State.setM_withHostSide (x : Vector U64 16) :
    (s.withHostSide u).setM x = (s.setM x).withHostSide u := rfl
@[simp] theorem State.setT_withHostSide (x : U128) :
    (s.withHostSide u).setT x = (s.setT x).withHostSide u := rfl
@[simp] theorem State.setHidden_withHostSide (x : Hidden) :
    (s.withHostSide u).setHidden x = (s.setHidden x).withHostSide u := rfl

end WithHostSide

/-- The two contents of IN read alike at the `n` addresses from `base` on. -/
def ReadAlike (m m' : Memory) (base n : Nat) : Prop := ∀ a, base ≤ a → a < base + n → m'.read a = m.read a

/-- A write past one end of a range leaves the range as it reads. -/
theorem Memory.write_readAlike {m : Memory} (hwf : m.wf) {a base n : Nat} (h : ¬ (base ≤ a ∧ a < base + n)) (v : Byte) :
    ReadAlike m (m.write a v) base n := by
  intro b hb hbn
  rw [Memory.read_write hwf, if_neg (by omega)]

section HostStep
variable {s t : State}

/-- A register write while busy changes STATUS only, and in it neither BUSY nor ERR (R225, R226). -/
theorem hostRegWrite_of_busy (hb : s.status.busy = true) {idx : Fin 64} {v : U64} (h : hostRegWrite idx v s = .next t) :
    ∃ x : Status, t = s.setStatus x ∧ x.busy = s.status.busy ∧ x.err = s.status.err := by
  unfold hostRegWrite at h
  simp only [whenIdle, hb, if_true] at h
  cases hp : portReg idx <;> rw [hp] at h <;> cases h <;> exact ⟨_, rfl, rfl, rfl⟩

/-- A read of a data register changes the answer, and while busy the count of free values (R221, R227). -/
theorem State.readData_cases (s : State) (x : U64) :
    s.readData x = s.withHostSide (s.readData x) ∧ (s.readData x).status = s.status ∧ (s.readData x).mem = s.mem := by
  unfold State.readData
  split <;> exact ⟨rfl, rfl, rfl⟩

/-- A register read can set UNM, and beside that it changes the answer and the count of free values only (R221). -/
theorem hostRegRead_next {idx : Fin 64} (h : hostRegRead idx s = .next t) :
    t = s.withHostSide t ∧ t.status.busy = s.status.busy ∧ t.status.err = s.status.err ∧ t.mem = s.mem := by
  unfold hostRegRead at h
  cases hp : portReg idx <;> rw [hp] at h <;> cases h
  case reserved | status | cmd | inAddr | len => exact ⟨rfl, rfl, rfl, rfl⟩
  all_goals
    obtain ⟨heq, hstatus, hmem⟩ := s.readData_cases _
    exact ⟨heq, by rw [hstatus], by rw [hstatus], hmem⟩

theorem readLength_eq {i : Instr} (h : decode s.cmd = .ok i) : readLength s = commandReads i s := by
  unfold readLength
  rw [h]
  cases i <;> rfl

/-- Everything a host operation can do while the command `i` is in flight: STATUS, IN, the answer and the count of free
values may differ after it, but not BUSY, not ERR and no byte that `i` may read (R226, R228, R293). -/
theorem hostStep_of_busy {i : Instr} {op : HostOp} (hb : s.status.busy = true) (hi : decode s.cmd = .ok i)
    (hwf : s.mem.wf) (h : hostStep op s = .next t) :
    ∃ u, t = s.withHostSide u ∧ u.status.busy = s.status.busy ∧ u.status.err = s.status.err ∧
      ReadAlike s.mem u.mem s.inAddr.toNat (commandReads i s) := by
  cases op with
  | regWrite idx v =>
    obtain ⟨x, rfl, hbusy, herr⟩ := hostRegWrite_of_busy (s := s.setAnswer .none) hb h
    exact ⟨(s.setAnswer .none).setStatus x, rfl, hbusy, herr, fun _ _ _ => rfl⟩
  | regRead idx =>
    obtain ⟨ht, hbusy, herr, hmem⟩ := hostRegRead_next h
    exact ⟨t, ht, hbusy, herr, fun _ _ _ => by rw [hmem]⟩
  | inWrite a v =>
    obtain ⟨rfl, hrange⟩ := hostInWrite_next h
    refine ⟨(s.setAnswer .none).setMem (s.mem.write a v), rfl, rfl, rfl, Memory.write_readAlike hwf ?_ v⟩
    have hr : inReadRange s a = false := hrange hb
    simpa [inReadRange, readLength_eq hi] using hr
  | inRead a =>
    exact ⟨s.setAnswer (.byte (s.mem.read a)), hostInRead_next h, rfl, rfl, fun _ _ _ => rfl⟩

end HostStep

/-! ### What the engine computes does not depend on the host's side -/

section Blocks
variable {m m' : Memory} {base n a : Nat}

theorem ReadAlike.readBlock_eq (h : ReadAlike m m' base n) (h1 : base ≤ a) (h2 : a + 128 ≤ base + n) :
    m'.readBlock a = m.readBlock a := by
  unfold Memory.readBlock
  congr 1
  funext j
  exact h _ (by omega) (by omega)

theorem ReadAlike.paddedBlock_eq (h : ReadAlike m m' base n) (h1 : base ≤ a) {len : Nat} (h2 : a + len ≤ base + n) :
    paddedBlock m' a len = paddedBlock m a len := by
  unfold paddedBlock
  congr 1
  funext j
  split
  · exact h _ (by omega) (by omega)
  · rfl

end Blocks

theorem gSteps_withHostSide (n : Nat) (s u : State) :
    gSteps n (s.withHostSide u) = (gSteps n s).withHostSide u := by
  induction n generalizing s with
  | zero => rfl
  | succ n ih => exact ih (gStep s)

@[simp] theorem compressBlock_withHostSide (blk : Vector Byte 128) (f0 f1 : Bool) (s u : State) :
    compressBlock blk f0 f1 (s.withHostSide u) = (compressBlock blk f0 f1 s).withHostSide u := by
  simp [compressBlock, parseStage, initStage, roundsStage, foldStage, gSteps_withHostSide]

/-! ### DRIVE reads its LEN bytes only (R61) -/

theorem finalOffset_le (len w : Nat) : finalOffset len w ≤ len := by
  unfold finalOffset satSub
  split <;> omega

theorem dvd_finalOffset (len w : Nat) : w ∣ finalOffset len w := Nat.dvd_sub_mod _

theorem finalOffset_add_tailLength_le (len w : Nat) : finalOffset len w + tailLength len w ≤ len := by
  have := finalOffset_le len w
  unfold tailLength
  split <;> omega

/-- OFF stands a whole number of blocks of width `w` before FIN_OFF (R183, R188). -/
structure OffOnGrid (w : Nat) (s : State) : Prop where
  le : s.hidden.off.toNat ≤ s.hidden.finOff.toNat
  dvd : w ∣ s.hidden.finOff.toNat - s.hidden.off.toNat

section Loop
variable {w : Nat} {s : State}

/-- FIN_OFF is at most LEN, so its 64-bit register holds it. -/
theorem driveSetup_finOff_toNat (fin ln : Bool) (w : Nat) (s : State) :
    (driveSetup fin ln w s).hidden.finOff.toNat = finalOffset s.len.toNat w :=
  Nat.mod_eq_of_lt (lt_of_le_of_lt (finalOffset_le _ w) s.len.isLt)

theorem driveSetup_offOnGrid (fin ln : Bool) (w : Nat) (s : State) : OffOnGrid w (driveSetup fin ln w s) where
  le := Nat.zero_le _
  dvd := by
    rw [driveSetup_finOff_toNat]
    exact dvd_finalOffset _ w

/-- Before the final block at least one block's width is left. -/
theorem OffOnGrid.add_le (h : OffOnGrid w s) (hf : atFinal s = false) :
    s.hidden.off.toNat + w ≤ s.hidden.finOff.toNat := by
  have hne : s.hidden.off ≠ s.hidden.finOff := by simpa [atFinal] using hf
  have hlt := lt_of_le_of_ne h.le (mt BitVec.eq_of_toNat_eq hne)
  have := Nat.le_of_dvd (by omega) h.dvd
  omega

/-- A block before the final one moves OFF on by the width and leaves FIN_OFF. -/
theorem advanceOff_driveBlock (hf : atFinal s = false) :
    (advanceOff w (driveBlock s)).hidden.off = s.hidden.off + BitVec.ofNat 64 w ∧
    (advanceOff w (driveBlock s)).hidden.finOff = s.hidden.finOff := by
  obtain ⟨hoff, hfinOff, -⟩ := compressBlock_drive (s.mem.readBlock (s.inAddr.toNat + s.hidden.off.toNat)) false false
    (s.setT (addCounter s.t 128))
  rw [State.setT_hidden] at hoff hfinOff
  simp only [advanceOff, driveBlock, hf, Bool.false_eq_true, if_false, State.setHidden_hidden, hoff, hfinOff, and_self]

theorem OffOnGrid.advance (h : OffOnGrid w s) (hf : atFinal s = false) : OffOnGrid w (advanceOff w (driveBlock s)) := by
  have hle := h.add_le hf
  obtain ⟨hoff, hfinOff⟩ := advanceOff_driveBlock (w := w) hf
  have htoNat : (s.hidden.off + BitVec.ofNat 64 w).toNat = s.hidden.off.toNat + w := by
    have := s.hidden.finOff.isLt
    rw [BitVec.toNat_add, BitVec.toNat_ofNat, Nat.add_mod_mod, Nat.mod_eq_of_lt (by omega)]
  constructor
  · rw [hoff, hfinOff, htoNat]
    exact hle
  · rw [hoff, hfinOff, htoNat, ← Nat.sub_sub]
    exact Nat.dvd_sub h.dvd dvd_rfl

variable {u : State} {n : Nat}

/-- A block of DRIVE reads IN only before the final block, and only below FIN_OFF (R188). -/
theorem driveBlock_withHostSide (hr : ReadAlike s.mem u.mem s.inAddr.toNat n)
    (hin : atFinal s = false → s.hidden.off.toNat + 128 ≤ n) :
    driveBlock (s.withHostSide u) = (driveBlock s).withHostSide u := by
  have hfinal : atFinal (s.withHostSide u) = atFinal s := rfl
  unfold driveBlock
  rw [hfinal]
  split
  · simp
  next hf =>
    have hoff := hin (Bool.eq_false_of_not_eq_true hf)
    have hblock := hr.readBlock_eq (a := s.inAddr.toNat + s.hidden.off.toNat) (by omega) (by omega)
    simp [hblock]

theorem driveLoop_withHostSide (turns : Nat) (hw : 128 ≤ w) (hg : OffOnGrid w s)
    (hn : s.hidden.finOff.toNat ≤ n) (hr : ReadAlike s.mem u.mem s.inAddr.toNat n) :
    driveLoop turns w (s.withHostSide u) = (driveLoop turns w s).withHostSide u := by
  induction turns generalizing s with
  | zero => rfl
  | succ turns ih =>
    have hfinal : atFinal (s.withHostSide u) = atFinal s := rfl
    have hblock := driveBlock_withHostSide hr fun hf => by have := hg.add_le hf; omega
    rw [driveLoop, driveLoop, hfinal, hblock]
    split
    · rfl
    next hf =>
      have hf := Bool.eq_false_of_not_eq_true hf
      have hadvance : advanceOff w ((driveBlock s).withHostSide u) = (advanceOff w (driveBlock s)).withHostSide u := rfl
      rw [hadvance]
      refine ih (hg.advance hf) ?_ ?_
      · rw [(advanceOff_driveBlock hf).2]
        exact hn
      · simpa [advanceOff] using hr

end Loop

/-- DRIVE's setup reads the true tail only (R185), which lies below LEN. -/
theorem driveSetup_withHostSide (fin ln : Bool) (w : Nat) {s u : State}
    (hr : ReadAlike s.mem u.mem s.inAddr.toNat s.len.toNat) :
    driveSetup fin ln w (s.withHostSide u) = (driveSetup fin ln w s).withHostSide u := by
  have hle := finalOffset_add_tailLength_le s.len.toNat w
  have hpad := hr.paddedBlock_eq (a := s.inAddr.toNat + finalOffset s.len.toNat w)
    (len := tailLength s.len.toNat w) (by omega) (by omega)
  simp [driveSetup, hpad]

theorem driveBody_withHostSide {k : Fin 16} (hk : k ≠ 0) (fin ln : Bool) {s u : State}
    (hr : ReadAlike s.mem u.mem s.inAddr.toNat s.len.toNat) :
    driveBody fin ln k (s.withHostSide u) = (driveBody fin ln k s).withHostSide u := by
  have hw : 128 ≤ blockWidth k := by
    have : k.val ≠ 0 := fun e => hk (Fin.ext e)
    unfold blockWidth
    omega
  have hfinOff : (driveSetup fin ln (blockWidth k) s).hidden.finOff.toNat ≤ s.len.toNat := by
    rw [driveSetup_finOff_toNat]
    exact finalOffset_le _ _
  rw [driveBody, driveSetup_withHostSide fin ln _ hr]
  exact driveLoop_withHostSide _ hw (driveSetup_offOnGrid fin ln _ s) hfinOff hr

/-! ### The command in flight -/

/-- A command none of whose errors applies computes the same from an IN that reads alike in its read range (R73). -/
theorem commandBody_withHostSide {i : Instr} {s u : State} (he : issueError i s = none)
    (hr : ReadAlike s.mem u.mem s.inAddr.toNat (commandReads i s)) :
    commandBody i (s.withHostSide u) = (commandBody i s).withHostSide u := by
  cases i with
  | nop | g | init | fold => rfl
  | round r =>
    simp only [commandBody, roundBody]
    split <;> rfl
  | loadm =>
    have hblock := hr.readBlock_eq le_rfl le_rfl
    simp [commandBody, loadmBody_eq, parseStage, hblock]
  | compress f0 f1 =>
    have hblock := hr.readBlock_eq le_rfl le_rfl
    simp [commandBody, hblock]
  | drive fin ln k =>
    have hk : k ≠ 0 := by
      rintro rfl
      simp [issueError, checkDrive] at he
    exact driveBody_withHostSide hk fin ln hr

/-- Settles O46: the host's operation changes its own side only, of which the command reads nothing but bytes of its
read range. -/
theorem hostCannotDisturbACommand : Obligations.HostCannotDisturbACommand := by
  intro i op s s' t t' hs hi he hwf hop ht ht'
  obtain ⟨u, rfl, hbusy, herr, hr⟩ := hostStep_of_busy hs.1 hi hwf hop
  have he' : issueError i (s.withHostSide u) = none := by
    rwa [issueError_congr (s := s) (t := s.withHostSide u) rfl rfl rfl]
  refine ⟨⟨hbusy.trans hs.1, hs.2⟩, rfl, he', ?_⟩
  by_cases hnop : i = .nop
  · subst hnop
    cases (exec_nop s).symm.trans ht
    cases (exec_nop _).symm.trans ht'
    exact ⟨rfl, rfl, rfl, rfl, herr.symm⟩
  · cases (exec_of_issueError_none hnop he).symm.trans ht
    cases (exec_of_issueError_none hnop he').symm.trans ht'
    rw [commandBody_withHostSide he hr]
    exact ⟨rfl, rfl, rfl, rfl, by simp [herr]⟩

end Sys2Proof.Machine
end

section
/-! SUPPORT. Proofs about the encoding: what the decoder reads from a word, that encoding and decoding invert each
other, and how a word that is no well-formed command is refused (30_encoding.md). -/

namespace Sys2Proof

open Laws (rowOf)

/-! ### One field of a word (R80, R81, R86) -/

section Fields
variable (w : U64) (n : Fin 16) (b : Bool) {lo lo' i : Nat}

theorem nibble_and (x y : U64) (lo : Nat) : (nibble (x &&& y) lo).val = (nibble x lo).val &&& (nibble y lo).val := by
  refine Nat.eq_of_testBit_eq fun j => ?_
  rw [Nat.testBit_and, nibble_testBit, nibble_testBit, nibble_testBit, BitVec.getLsbD_and]
  by_cases hj : j < 4 <;> simp [hj]

theorem field_testBit_of_four_le {j : Nat} (hj : 4 ≤ j) : n.val.testBit j = false :=
  Nat.testBit_lt_two_pow (n.isLt.trans_le (Nat.pow_le_pow_right (n := 2) (by decide) hj))

theorem getLsbD_fieldAt (hi : i < 64) : (fieldAt n lo).getLsbD i = (decide (lo ≤ i) && n.val.testBit (i - lo)) := by
  have hsub : i - lo < 64 := by omega
  rw [fieldAt, BitVec.getLsbD_shiftLeft, BitVec.getLsbD_ofNat]
  simp [hi, hsub, ← decide_not]

theorem getLsbD_flagAt (hi : i < 64) : (flagAt b lo).getLsbD i = (decide (i = lo) && b) := by
  have hsub : i - lo < 64 := by omega
  rw [flagAt, BitVec.getLsbD_shiftLeft, BitVec.getLsbD_ofNat, Nat.testBit_bool_toNat]
  obtain h | h | h := lt_trichotomy i lo
  · simp [h, h.ne]
  · simp [h, h ▸ hi]
  · simp [show i - lo ≠ 0 by omega, h.ne']

theorem nibble_fieldAt_same (h : lo + 4 ≤ 64) : nibble (fieldAt n lo) lo = n := by
  refine Fin.ext (Nat.eq_of_testBit_eq fun j => ?_)
  rw [nibble_testBit]
  by_cases hj : j < 4
  · rw [getLsbD_fieldAt n (by omega)]
    simp [hj]
  · simp [hj, field_testBit_of_four_le n (not_lt.mp hj)]

/-- A field placed at one position is 0 in every field apart from it. -/
theorem nibble_fieldAt_apart (h : lo' + 4 ≤ lo ∨ lo + 4 ≤ lo') (h64 : lo' + 4 ≤ 64) :
    (nibble (fieldAt n lo) lo').val = 0 := by
  refine Nat.eq_of_testBit_eq fun j => ?_
  rw [nibble_testBit, Nat.zero_testBit]
  by_cases hj : j < 4
  · rw [getLsbD_fieldAt n (by omega)]
    obtain h | h := h
    · simp [show ¬ lo ≤ lo' + j by omega]
    · simp [field_testBit_of_four_le n (show 4 ≤ lo' + j - lo by omega)]
  · simp [hj]

/-- A flag is 0 in every field above it. -/
theorem nibble_flagAt_above (h : lo < lo') (h64 : lo' + 4 ≤ 64) : (nibble (flagAt b lo) lo').val = 0 := by
  refine Nat.eq_of_testBit_eq fun j => ?_
  rw [nibble_testBit, Nat.zero_testBit]
  by_cases hj : j < 4
  · rw [getLsbD_flagAt b (by omega)]
    simp [show lo' + j ≠ lo by omega]
  · simp [hj]

/-- A field read and placed back is the word's own four bits. -/
theorem fieldAt_nibble (lo : Nat) : fieldAt (nibble w lo) lo = w &&& fieldAt 15 lo := by
  refine BitVec.eq_of_getLsbD_eq fun i hi => ?_
  have hones : (15 : Fin 16).val.testBit (i - lo) = decide (i - lo < 4) := Nat.testBit_two_pow_sub_one 4 _
  rw [BitVec.getLsbD_and, getLsbD_fieldAt _ hi, getLsbD_fieldAt _ hi, nibble_testBit, hones]
  by_cases hle : lo ≤ i
  · simp [hle, Bool.and_comm]
  · simp [hle]

/-- A flag read and placed back is the word's own bit. -/
theorem flagAt_getLsbD (lo : Nat) : flagAt (w.getLsbD lo) lo = w &&& flagAt true lo := by
  refine BitVec.eq_of_getLsbD_eq fun i hi => ?_
  rw [BitVec.getLsbD_and, getLsbD_flagAt _ hi, getLsbD_flagAt _ hi]
  by_cases h : i = lo
  · simp [h]
  · simp [h]

end Fields

/-! ### What the decoder reads (R82, R84) -/

/-- The command of the row of `i` whose fields are those of the word `w`, where R80 places them. -/
def Instr.withFieldsOf (w : U64) : Instr → Instr
  | .nop => .nop
  | .g _ _ _ _ _ _ => .g (nibble w 4) (nibble w 8) (nibble w 12) (nibble w 16) (nibble w 20) (nibble w 24)
  | .round _ => .round (nibble w 4)
  | .loadm => .loadm
  | .init _ _ => .init (w.getLsbD 4) (w.getLsbD 5)
  | .fold => .fold
  | .compress _ _ => .compress (w.getLsbD 4) (w.getLsbD 5)
  | .drive _ _ _ => .drive (w.getLsbD 4) (w.getLsbD 5) (nibble w 8)

section Decode
variable {w : U64} {i : Instr}

theorem selectedBy_eq_ok_iff {row : OpcodeRow} {j : Instr} :
    selectedBy row w j = .ok i ↔ row.selects w = true ∧ j = i := by
  unfold selectedBy
  split <;> simp [*]

theorem selectedBy_eq_error {row : OpcodeRow} {e : ErrCode} (h : selectedBy row w i = .error e) : e = .illegalField := by
  unfold selectedBy at h
  split at h <;> cases h
  rfl

theorem rowOf_mem_opcodeTable (i : Instr) : rowOf i ∈ opcodeTable := by
  cases i <;> simp [rowOf, opcodeTable]

theorem opcodeTable_mask_opcode : ∀ row ∈ opcodeTable, (nibble row.mask 0).val = 2 ^ 4 - 1 := by decide

/-- The opcode field picks the row. -/
theorem decode_of_opcode (h : (nibble w 0).val = (nibble (rowOf i).matchBits 0).val) :
    decode w = selectedBy (rowOf i) w (i.withFieldsOf w) := by
  unfold decode
  rw [h]
  cases i <;> rfl

/-- A mask covers the opcode field (R83), so a selected word has the row's opcode. -/
theorem opcode_of_selects (h : (rowOf i).selects w = true) : (nibble w 0).val = (nibble (rowOf i).matchBits 0).val := by
  have hmask : (nibble (rowOf i).mask 0).val = 2 ^ 4 - 1 := opcodeTable_mask_opcode _ (rowOf_mem_opcodeTable i)
  rw [← eq_of_beq h, nibble_and, hmask, Nat.and_two_pow_sub_one_of_lt_two_pow (nibble w 0).isLt]

/-- A word decodes to a command exactly when the command's row selects it and the command's fields are the word's. -/
theorem decode_eq_ok_iff : decode w = .ok i ↔ (rowOf i).selects w = true ∧ i.withFieldsOf w = i := by
  constructor
  · intro h
    unfold decode at h
    split at h
    case h_9 => cases h
    all_goals
      obtain ⟨hsel, rfl⟩ := selectedBy_eq_ok_iff.mp h
      exact ⟨hsel, rfl⟩
  · rintro ⟨hsel, hfields⟩
    rw [decode_of_opcode (opcode_of_selects hsel)]
    exact selectedBy_eq_ok_iff.mpr ⟨hsel, hfields⟩

/-- A word that is no command has one of two codes (R84 items 1 and 2). -/
theorem decode_eq_error {e : ErrCode} (h : decode w = .error e) : e = .illegalOpcode ∨ e = .illegalField := by
  unfold decode at h
  split at h
  case h_9 =>
    cases h
    exact .inl rfl
  all_goals exact .inr (selectedBy_eq_error h)

end Decode

/-! ### Encoding and decoding invert each other -/

theorem rowOf_selects_encode (i : Instr) : (rowOf i).selects (encode i) = true := by
  cases i with
  | nop => exact Laws.RowSelects.nop
  | g a b c d mx my => exact Laws.RowSelects.g a b c d mx my
  | round r => exact Laws.RowSelects.round r
  | loadm => exact Laws.RowSelects.loadm
  | init f0 f1 => exact Laws.RowSelects.init f0 f1
  | fold => exact Laws.RowSelects.fold
  | compress f0 f1 => exact Laws.RowSelects.compress f0 f1
  | drive fin ln k => exact Laws.RowSelects.drive fin ln k

/-- Each field of the assembled word is the command's own: no field runs into another (R86). -/
theorem withFieldsOf_encode (i : Instr) : i.withFieldsOf (encode i) = i := by
  cases i with
  | nop | loadm | fold => rfl
  | init f0 f1 | compress f0 f1 => cases f0 <;> cases f1 <;> rfl
  | round r =>
    have hop : (nibble 0x2 4).val = 0 := rfl
    simp (disch := decide) only [Instr.withFieldsOf, encode, Instr.round.injEq, Fin.ext_iff, nibble_or, hop,
      nibble_fieldAt_same, Nat.zero_or]
  | g a b c d mx my =>
    have hop : ∀ lo ∈ [4, 8, 12, 16, 20, 24], (nibble 0x1 lo).val = 0 := by decide
    simp (disch := decide) only [Instr.withFieldsOf, encode, Instr.g.injEq, Fin.ext_iff, nibble_or, hop,
      nibble_fieldAt_same, nibble_fieldAt_apart, Nat.zero_or, Nat.or_zero, and_self]
  | drive fin ln k =>
    have hop : (nibble 0x7#64 8).val = 0 := rfl
    simp (disch := decide) [Instr.withFieldsOf, encode, Fin.ext_iff, nibble_or, hop, nibble_fieldAt_same,
      nibble_flagAt_above, getLsbD_flagAt, getLsbD_fieldAt, -BitVec.getLsbD_eq_getElem]

/-- Settles O1: the command's row selects its word, and each field read back is the command's own. -/
theorem decodeOfEncodeIsTheCommand : Obligations.DecodeOfEncodeIsTheCommand := fun i =>
  decode_eq_ok_iff.mpr ⟨rowOf_selects_encode i, withFieldsOf_encode i⟩

/-- The fields of a row cover every bit outside the row's mask, and no other (R83). -/
theorem encode_withFieldsOf (w : U64) (i : Instr) :
    encode (i.withFieldsOf w) = (rowOf i).matchBits ||| (w &&& ~~~(rowOf i).mask) := by
  cases i <;>
    simp only [Instr.withFieldsOf, encode, fieldAt_nibble, flagAt_getLsbD, BitVec.or_assoc, ← BitVec.and_or_distrib_left]
  case nop | loadm | fold => simp [rowOf, rowNop, rowLoadm, rowFold]
  all_goals
    refine congrArg (_ ||| w &&& ·) ?_
    rw [rowOf]
    decide

/-- Settles O2: under the row's mask a selected word has the row's bits, and every other bit is in a field. -/
theorem encodeOfDecodeIsTheWord : Obligations.EncodeOfDecodeIsTheWord := by
  intro w i h
  obtain ⟨hsel, hfields⟩ := decode_eq_ok_iff.mp h
  calc encode i = encode (i.withFieldsOf w) := by rw [hfields]
    _ = (w &&& (rowOf i).mask) ||| (w &&& ~~~(rowOf i).mask) := by rw [encode_withFieldsOf, eq_of_beq hsel]
    _ = w := by rw [← BitVec.and_or_distrib_left, BitVec.or_not_self, BitVec.and_allOnes]

/-- Settles O3: each word is the assembled word of the command it stands for. -/
theorem specExampleWordsDecode : Obligations.SpecExampleWordsDecode :=
  have h := decodeOfEncodeIsTheCommand
  ⟨h .nop, h (.g 0 4 8 12 0 1), h (.round 11), h .loadm, h (.init true false), h .fold, h (.compress true true),
    h (.drive true false 1), h (.drive false false 1), h (.drive true true 4)⟩

end Sys2Proof

namespace Sys2Proof.Machine

/-! ### How a word is refused (R84, R222) -/

section Refusal
variable {w : U64} {i : Instr} {e : ErrCode} {s : State}

/-- A command whose fields break R83 raises ILLEGAL_FIELD before anything else (R241 item 3). -/
theorem issueError_of_not_wellFormed (h : i.wellFormed = false) (s : State) : issueError i s = some .illegalField := by
  cases i with
  | nop | loadm | init | fold | compress => cases h
  | g a b c d mx my =>
    have hslots : slotsDistinct a b c d = false := h
    simp [issueError, checkG, hslots]
  | round r =>
    have hr : r.val > 11 := by simpa [Instr.wellFormed] using h
    simp [issueError, checkRound, hr]
  | drive fin ln k =>
    have hk : k = 0 := by simpa [Instr.wellFormed] using h
    simp [issueError, checkDrive, hk]

theorem issue_of_decode_error (h : decode w = .error e) (s : State) : issue w s = .next ((s.capture w).raise e) := by
  unfold issue
  rw [h]

theorem issue_of_issueError (h : decode w = .ok i) (he : issueError i (s.capture w) = some e) :
    issue w s = .next ((s.capture w).raise e) := by
  have hnow : completesAtIssue i (s.capture w) = true := by simp [completesAtIssue, he]
  unfold issue
  rw [h]
  simp only [hnow, if_true]
  exact exec_of_issueError_some he

/-- A host write to CMD while idle issues the word (R222). -/
theorem hostRegWrite_cmd_of_idle (h : s.Idle) (w : U64) : hostRegWrite cmdIndex w s = issue w s := by
  have hport : portReg cmdIndex = .cmd := by decide
  unfold hostRegWrite
  rw [hport]
  simp [whenIdle, h.1]

/-- A word refused from an idle state: CMD holds it, DONE is set with the code, and nothing else changes. -/
theorem raise_capture_of_idle (h : s.Idle) (w : U64) (e : ErrCode) :
    (s.capture w).raise e = { s with cmd := w, status := { s.status with done := true, err := e } } := by
  obtain ⟨hbusy, hpend⟩ := h
  calc (s.capture w).raise e
      = { s with cmd := w, status := { s.status with busy := false, done := true, err := e }, pend := false } := rfl
    _ = _ := by simp only [hbusy, hpend]

end Refusal

/-- Settles O4: a word that is no command is refused by the decoder, an ill-formed command by its own raise line. -/
theorem everyWordDecodesOrIsRefused : Obligations.EveryWordDecodesOrIsRefused := by
  intro w
  cases hd : decode w with
  | error e =>
    refine .inr ⟨e, decode_eq_error hd, fun s hs => ?_⟩
    rw [hostRegWrite_cmd_of_idle hs, issue_of_decode_error hd, raise_capture_of_idle hs]
  | ok i =>
    by_cases hwf : i.wellFormed = true
    · exact .inl ⟨i, rfl, hwf⟩
    · refine .inr ⟨.illegalField, .inr rfl, fun s hs => ?_⟩
      have he := issueError_of_not_wellFormed (Bool.eq_false_of_not_eq_true hwf) (s.capture w)
      rw [hostRegWrite_cmd_of_idle hs, issue_of_issueError hd he, raise_capture_of_idle hs]

end Sys2Proof.Machine
end

section
/-! SUPPORT. Proofs about the G mixer and about the errors commands raise (40_mixer.md). -/

namespace Sys2Proof.Machine

/-! ### The errors commands raise (R240, R242) -/

/-- `raise` leaves the state of `State.afterError` (R242). -/
theorem exec_eq_afterError {i : Instr} {s : State} {e : ErrCode} (h : issueError i s = some e) :
    exec i s = .next (s.afterError e) :=
  exec_of_issueError_some h

theorem checkBlockRange_of_outside {s : State} (h : s.inAddr.toNat + 128 > s.params.inSize) :
    checkBlockRange s = some .range := if_pos h

section Drive
variable {fin : Bool} {k : Fin 16} {s : State}

theorem checkDrive_of_outside (hk : k ≠ 0) (h : s.inAddr.toNat + s.len.toNat > s.params.inSize) :
    checkDrive fin k s = some .range := by
  unfold checkDrive
  rw [if_neg hk, if_pos h]

theorem checkDrive_of_contractBroken (hk : k ≠ 0) (h : s.inAddr.toNat + s.len.toNat ≤ s.params.inSize)
    (hmode : s.params.contractMode = .fault) (hb : contractBroken fin s.len.toNat (blockWidth k) = true) :
    checkDrive fin k s = some .contract := by
  have hraise : (s.params.contractMode = .fault && contractBroken fin s.len.toNat (blockWidth k)) = true := by
    simp [hmode, hb]
  unfold checkDrive
  rw [if_neg hk, if_neg h.not_gt, if_pos hraise]

end Drive

/-- A call that is not final and leaves no full final block breaks the contract (R187). -/
theorem contractBroken_of_not_full {len w : Nat} (h : len = 0 ∨ len - finalOffset len w < 128) :
    contractBroken false len w = true := by
  simpa [contractBroken] using h

/-- Settles O9: every clause names the raise line that applies first, and `exec` raises it. -/
theorem commandsRaiseTheirErrors : Obligations.CommandsRaiseTheirErrors :=
  ⟨fun a b c d mx my s h => exec_eq_afterError (issueError_of_not_wellFormed (i := .g a b c d mx my) h s),
    fun r s h => exec_eq_afterError (issueError_of_not_wellFormed (i := .round r) (decide_eq_false h.not_ge) s),
    fun _ h => exec_eq_afterError (checkBlockRange_of_outside h),
    fun _ _ _ h => exec_eq_afterError (checkBlockRange_of_outside h),
    fun fin ln s => exec_eq_afterError (issueError_of_not_wellFormed (i := .drive fin ln 0) rfl s),
    fun _ _ _ _ hk h => exec_eq_afterError (checkDrive_of_outside hk h),
    fun _ _ _ hk h hmode hfull =>
      exec_eq_afterError (checkDrive_of_contractBroken hk h hmode (contractBroken_of_not_full hfull))⟩

/-! ### G on four distinct slots (R110, R111) -/

/-- A body that has run and finished leaves everything but the data registers and the hidden ones as R223 says. -/
theorem completed_finish_commandBody (i : Instr) (s : State) : Completed s (commandBody i s).finish := by
  constructor <;> simp [Status.completed]

/-- Settles O12: no raise line applies, and the body of G writes the mixed words into the four slots only. -/
theorem gMixesFourSlots : Obligations.GMixesFourSlots := by
  intro a b c d mx my s h
  have hnone : issueError (.g a b c d mx my) s = none := if_pos h
  obtain ⟨ha, hb, hc, hd⟩ := gfun_slots s.v a b c d s.m[mx] s.m[my] h
  have hexec := exec_of_issueError_none (i := .g a b c d mx my) nofun hnone
  exact ⟨_, hexec, completed_finish_commandBody _ s, rfl, rfl, rfl, ha, hb, hc, hd,
    gfun_other s.v a b c d s.m[mx] s.m[my]⟩

/-! ### One statement of Gfun (R110)

The laws of the mixer are proved of one statement, then of a list of statements; Gfun is such a list. -/

/-- What a statement of R110 makes of the old value of its slot and of the value it reads (R112). -/
inductive MixOp where
  /-- Statements 1, 3, 5 and 7: the value read and the word `x` are added (R113). -/
  | add (x : U64)
  /-- Statements 2, 4, 6 and 8: the value read is XORed in and the result rotated right by `n` (R114). -/
  | xorRotr (n : Fin 64)

def MixOp.apply : MixOp → U64 → U64 → U64
  | .add x, p, q => p + q + x
  | .xorRotr n, p, q => rotr64 (p ^^^ q) n.val

/-- The old value of the slot, from its new value and the value that was read (R115). -/
def MixOp.undo : MixOp → U64 → U64 → U64
  | .add x, r, q => r - x - q
  | .xorRotr n, r, q => r.rotateLeft n.val ^^^ q

theorem rotateLeft_rotateRight (v : U64) (n : Fin 64) : (v.rotateRight n.val).rotateLeft n.val = v := by
  ext i hi
  grind

theorem rotateRight_rotateLeft (v : U64) (n : Fin 64) : (v.rotateLeft n.val).rotateRight n.val = v := by
  ext i hi
  grind

@[simp] theorem MixOp.undo_apply (o : MixOp) (p q : U64) : o.undo (o.apply p q) q = p := by
  cases o with
  | add x => simp [apply, undo]
  | xorRotr n => simp [apply, undo, rotr64_eq_rotateRight _ n.isLt, rotateLeft_rotateRight]

@[simp] theorem MixOp.apply_undo (o : MixOp) (r q : U64) : o.apply (o.undo r q) q = r := by
  cases o with
  | add x => simp [apply, undo]
  | xorRotr n => simp [apply, undo, rotr64_eq_rotateRight _ n.isLt, rotateRight_rotateLeft]

/-- A statement of R110: it replaces the word in the slot `dst`, and reads the slot `src`. -/
structure MixStep where
  dst : Fin 16
  src : Fin 16
  op : MixOp

/-- The statement on a working vector. -/
def MixStep.run (p : MixStep) (v : Vector U64 16) : Vector U64 16 := v.set p.dst (p.op.apply v[p.dst] v[p.src])

/-- The statement taken back. -/
def MixStep.unrun (p : MixStep) (v : Vector U64 16) : Vector U64 16 := v.set p.dst (p.op.undo v[p.dst] v[p.src])

/-- The statements in order. -/
def mixAll (l : List MixStep) (v : Vector U64 16) : Vector U64 16 := l.foldl (fun v p => p.run v) v

/-- The eight statements of R110. -/
def gfunSteps (a b c d : Fin 16) (x y : U64) : List MixStep :=
  [⟨a, b, .add x⟩, ⟨d, a, .xorRotr 32⟩, ⟨c, d, .add 0⟩, ⟨b, c, .xorRotr 24⟩,
   ⟨a, b, .add y⟩, ⟨d, a, .xorRotr 16⟩, ⟨c, d, .add 0⟩, ⟨b, c, .xorRotr 63⟩]

theorem gfun_eq_mixAll (v : Vector U64 16) (a b c d : Fin 16) (x y : U64) :
    gfun v a b c d x y = mixAll (gfunSteps a b c d x y) v := by
  simp [gfun, mixAll, gfunSteps, MixStep.run, MixOp.apply]

@[simp] theorem mixAll_nil (v : Vector U64 16) : mixAll [] v = v := rfl

@[simp] theorem mixAll_cons (p : MixStep) (l : List MixStep) (v : Vector U64 16) :
    mixAll (p :: l) v = mixAll l (p.run v) := rfl


/-! ### The laws of one statement, carried over to a list of statements -/

section Steps
variable {p q : MixStep} {l l' : List MixStep} {v : Vector U64 16}

theorem MixStep.unrun_run (h : p.dst ≠ p.src) (v : Vector U64 16) : p.unrun (p.run v) = v := by
  simp [unrun, run, Vector.getElem_set_ne, Fin.val_ne_of_ne h]

theorem MixStep.run_unrun (h : p.dst ≠ p.src) (v : Vector U64 16) : p.run (p.unrun v) = v := by
  simp [unrun, run, Vector.getElem_set_ne, Fin.val_ne_of_ne h]

theorem MixStep.run_bijective (h : p.dst ≠ p.src) : Function.Bijective p.run :=
  Function.bijective_iff_has_inverse.mpr ⟨p.unrun, unrun_run h, run_unrun h⟩

theorem mixAll_bijective (h : ∀ p ∈ l, p.dst ≠ p.src) : Function.Bijective (mixAll l) := by
  induction l with
  | nil => exact Function.bijective_id
  | cons p l ih =>
    obtain ⟨hp, hl⟩ := List.forall_mem_cons.mp h
    exact (ih hl).comp (MixStep.run_bijective hp)

theorem mixAll_eq_self (h : ∀ p ∈ l, p.run v = v) : mixAll l v = v := by
  induction l with
  | nil => rfl
  | cons p l ih =>
    obtain ⟨hp, hl⟩ := List.forall_mem_cons.mp h
    rw [mixAll_cons, hp, ih hl]

/-- Neither statement writes a slot that the other writes or reads. -/
structure MixStep.Apart (p q : MixStep) : Prop where
  dst_dst : p.dst ≠ q.dst
  dst_src : p.dst ≠ q.src
  src_dst : p.src ≠ q.dst

theorem MixStep.Apart.run_comm (h : p.Apart q) (v : Vector U64 16) : p.run (q.run v) = q.run (p.run v) := by
  have hdd := Fin.val_ne_of_ne h.dst_dst
  have hds := Fin.val_ne_of_ne h.dst_src
  have hsd := Fin.val_ne_of_ne h.src_dst
  simp [run, Vector.getElem_set_ne, hdd, hdd.symm, hds, hsd.symm, Vector.set_comm _ _ hdd]

theorem run_mixAll_comm (h : ∀ q ∈ l, p.Apart q) (v : Vector U64 16) : p.run (mixAll l v) = mixAll l (p.run v) := by
  induction l generalizing v with
  | nil => rfl
  | cons q l ih =>
    obtain ⟨hq, hl⟩ := List.forall_mem_cons.mp h
    rw [mixAll_cons, mixAll_cons, ih hl, hq.run_comm]

theorem mixAll_comm (h : ∀ p ∈ l, ∀ q ∈ l', p.Apart q) (v : Vector U64 16) :
    mixAll l (mixAll l' v) = mixAll l' (mixAll l v) := by
  induction l generalizing v with
  | nil => rfl
  | cons p l ih =>
    obtain ⟨hp, hl⟩ := List.forall_mem_cons.mp h
    rw [mixAll_cons, mixAll_cons, run_mixAll_comm hp, ih hl]

end Steps

/-! ### The laws of Gfun (R115, R116) -/

section Gfun
variable {a b c d : Fin 16} {x y : U64} {p : MixStep}

/-- The statements of R110 write and read the four slots only. -/
theorem slots_of_mem_gfunSteps (h : p ∈ gfunSteps a b c d x y) : p.dst ∈ [a, b, c, d] ∧ p.src ∈ [a, b, c, d] := by
  revert p
  simp [gfunSteps]

theorem dst_ne_src_of_mem_gfunSteps (hs : slotsDistinct a b c d = true) (h : p ∈ gfunSteps a b c d x y) :
    p.dst ≠ p.src := by
  simp only [slotsDistinct, Bool.and_eq_true, bne_iff_ne] at hs
  obtain ⟨⟨⟨⟨⟨hab, hac⟩, had⟩, hbc⟩, hbd⟩, hcd⟩ := hs
  revert p
  simp [gfunSteps, hab, hbc, hcd, Ne.symm had]

/-- With zero message words every statement of R110 makes 0 of zeros. -/
theorem apply_zero_of_mem_gfunSteps (h : p ∈ gfunSteps a b c d 0 0) : p.op.apply 0 0 = 0 := by
  revert p
  simp [gfunSteps, MixOp.apply, rotr64]

theorem gfun_zero {v : Vector U64 16} (h : ∀ i ∈ [a, b, c, d], v[i] = 0) : gfun v a b c d 0 0 = v := by
  rw [gfun_eq_mixAll]
  refine mixAll_eq_self fun p hp => ?_
  obtain ⟨hdst, hsrc⟩ := slots_of_mem_gfunSteps hp
  calc v.set p.dst (p.op.apply v[p.dst] v[p.src])
      = v.set p.dst v[p.dst] := by rw [h _ hdst, h _ hsrc, apply_zero_of_mem_gfunSteps hp]
    _ = v := Vector.set_getElem_self _

theorem gfun_bijective (h : slotsDistinct a b c d = true) (x y : U64) :
    Function.Bijective (fun v : Vector U64 16 => gfun v a b c d x y) := by
  simp only [gfun_eq_mixAll]
  exact mixAll_bijective fun p => dst_ne_src_of_mem_gfunSteps h

end Gfun

/-- Settles O30: zeros are fixed by each of the eight statements, and on distinct slots each can be taken back. -/
theorem gfunZeroFixedAndBijective : Obligations.GfunZeroFixedAndBijective :=
  ⟨fun _ _ _ _ _ ha hb hc hd => gfun_zero (by simpa using ⟨ha, hb, hc, hd⟩), fun _ _ _ _ x y h => gfun_bijective h x y⟩

/-- Settles O31: no statement of one Gfun writes a slot that a statement of the other writes or reads. -/
theorem disjointGfunsCommute : Obligations.DisjointGfunsCommute := by
  intro v a b c d a' b' c' d' x y x' y' h
  simp only [gfun_eq_mixAll]
  refine (mixAll_comm (fun p hp q hq => ?_) v).symm
  obtain ⟨hpd, hps⟩ := slots_of_mem_gfunSteps hp
  obtain ⟨hqd, hqs⟩ := slots_of_mem_gfunSteps hq
  exact ⟨h _ hpd _ hqd, h _ hpd _ hqs, h _ hps _ hqd⟩

end Sys2Proof.Machine
end

section
/-! SUPPORT. Proofs about the round dispatcher: the order of the steps of a half round, the hidden counters, and ROUND
(41_round.md). -/

namespace Sys2Proof.Machine

/-! ### The order of the steps of a half round (R134) -/

/-- The slots of the G step `i` (R131). -/
def stepSlots (i : Fin 8) : List (Fin 16) := [gslot[i].1, gslot[i].2.1, gslot[i].2.2.1, gslot[i].2.2.2]

/-- Two column steps (`i / 4 = 0`), or two diagonal steps (`i / 4 = 1`), have no slot in common. -/
theorem stepSlots_disjoint : ∀ i j : Fin 8, i.val / 4 = j.val / 4 → i ≠ j →
    ∀ a ∈ stepSlots i, ∀ b ∈ stepSlots j, a ≠ b := by decide

theorem roundStep_comm {i j : Fin 8} (h : i.val / 4 = j.val / 4) (m : Vector U64 16) (r : Fin 12)
    (v : Vector U64 16) : roundStep m r (roundStep m r v i) j = roundStep m r (roundStep m r v j) i := by
  by_cases hij : i = j
  · rw [hij]
  · exact disjointGfunsCommute _ _ _ _ _ _ _ _ _ _ _ _ _ (stepSlots_disjoint i j h hij)

theorem foldl_roundStep_of_perm {p l : List (Fin 8)} {half : Nat} (hl : ∀ i ∈ l, i.val / 4 = half) (h : p.Perm l)
    (v m : Vector U64 16) (r : Fin 12) : p.foldl (roundStep m r) v = l.foldl (roundStep m r) v := by
  have hp {i : Fin 8} (hi : i ∈ p) : i.val / 4 = half := hl i (h.subset hi)
  exact h.foldl_eq' (fun i hi j hj v => roundStep_comm ((hp hi).trans (hp hj).symm) m r v) v

/-- Settles O32: any two steps of a half round commute, since their slots are disjoint. -/
theorem halfRoundStepsInAnyOrder : Obligations.HalfRoundStepsInAnyOrder := fun v m r _ =>
  ⟨fun h => foldl_roundStep_of_perm (half := 0) (by decide) h v m r,
    fun h => foldl_roundStep_of_perm (half := 1) (by decide) h v m r⟩

/-! ### The hidden counters (R136) -/

/-- The counters stand at the value number `n` of R136, counted from 0. -/
structure Hidden.AtStep (n : Nat) (x : Hidden) : Prop where
  rc : x.rc.val = n / 8
  sc : x.sc.val = n % 8

theorem Hidden.AtStep.nextStep {x : Hidden} {n : Nat} (h : x.AtStep n) (hn : n + 1 < 96) :
    x.nextStep.AtStep (n + 1) := by
  obtain ⟨hrc, hsc⟩ := h
  unfold Hidden.nextStep
  split
  · constructor <;> simp only <;> omega
  · split
    · constructor <;> simp <;> omega
    · omega

/-- The last of `n + 1` hidden G steps, taken off the end. -/
theorem gSteps_succ (n : Nat) (s : State) : gSteps (n + 1) s = gStep (gSteps n s) := by
  induction n generalizing s with
  | zero => rfl
  | succ n ih => rw [gSteps, ih, gSteps]

section Counters
variable {s : State} (h : s.hidden.AtStep 0)
include h

theorem gSteps_atStep {n : Nat} (hn : n < 96) : (gSteps n s).hidden.AtStep n := by
  induction n with
  | zero => exact h
  | succ n ih =>
    rw [gSteps_succ]
    exact (ih (by omega)).nextStep hn

theorem gSteps_succ_v {r i : Nat} (hr : r < 12) (hi : i < 8) :
    (gSteps (8 * r + i + 1) s).v = roundStep s.m ⟨r, hr⟩ (gSteps (8 * r + i) s).v ⟨i, hi⟩ := by
  have hdiv : (8 * r + i) / 8 = r := by omega
  have hmod : (8 * r + i) % 8 = i := by omega
  have hat := gSteps_atStep h (n := 8 * r + i) (by omega)
  have hrc : (gSteps (8 * r + i) s).hidden.rc = ⟨r, hr⟩ := Fin.ext (hat.rc.trans hdiv)
  have hsc : (gSteps (8 * r + i) s).hidden.sc = ⟨i, hi⟩ := Fin.ext (hat.sc.trans hmod)
  rw [gSteps_succ, gStep, State.setHidden_v, State.setV_v, hrc, hsc, gSteps_m]

/-- Inside round `r`: the first `i` of its steps, from what the rounds before it left. -/
theorem gSteps_v_in_round {r i : Nat} (hr : r < 12) (hi : i ≤ 8) :
    (gSteps (8 * r + i) s).v = ((List.finRange 8).take i).foldl (roundStep s.m ⟨r, hr⟩) (gSteps (8 * r) s).v := by
  induction i with
  | zero => rfl
  | succ i ih =>
    rw [← Nat.add_assoc, gSteps_succ_v h hr hi, ih (by omega), List.take_succ_eq_append_getElem (by simp; omega)]
    simp

/-- The hidden G steps of the first `r` rounds. -/
theorem gSteps_v_of_rounds {r : Nat} (hr : r ≤ 12) :
    (gSteps (8 * r) s).v = ((List.finRange 12).take r).foldl (fun v r => roundFn v s.m r) s.v := by
  induction r with
  | zero => rfl
  | succ r ih =>
    have hround : (gSteps (8 * (r + 1)) s).v = roundFn (gSteps (8 * r) s).v s.m ⟨r, hr⟩ :=
      gSteps_v_in_round h hr le_rfl
    rw [hround, ih (by omega), List.take_succ_eq_append_getElem (by simpa using hr)]
    simp

end Counters

theorem roundsStage_v (s : State) : (roundsStage s).v = allRounds s.v s.m := by
  have h := gSteps_v_of_rounds (s := s.setHidden { s.hidden with rc := 0, sc := 0 }) ⟨rfl, rfl⟩ (le_refl 12)
  simpa [roundsStage, allRounds, List.take_of_length_le] using h

/-- Settles O35: every hidden G step moves the counters to the next value, so 8 steps are a round and 96 are the 12. -/
theorem hiddenCountersRunTheRounds : Obligations.HiddenCountersRunTheRounds := by
  refine ⟨fun s n hn => ?_, roundsStage_v⟩
  obtain ⟨hrc, hsc⟩ := gSteps_atStep (s := s.setHidden { s.hidden with rc := 0, sc := 0 }) ⟨rfl, rfl⟩ hn
  exact ⟨hrc, hsc⟩

/-! ### ROUND (R133) -/

theorem checkRound_of_lt {r : Fin 16} (hr : r.val < 12) : checkRound r = none := if_neg (by omega)

theorem roundBody_of_lt {r : Fin 16} (hr : r.val < 12) (s : State) :
    roundBody r s = s.setV (roundFn s.v s.m ⟨r.val, hr⟩) := dif_pos hr

theorem roundFn_eq_foldl (v m : Vector U64 16) (r : Fin 12) :
    roundFn v m r = [0, 1, 2, 3, 4, 5, 6, 7].foldl (roundStep m r) v := by
  have hsteps : List.finRange 8 = [0, 1, 2, 3, 4, 5, 6, 7] := by decide
  rw [roundFn, hsteps]

/-- Settles O13: no raise line applies, and the eight steps of Round are Gfun on the slots of GSLOT. -/
theorem roundAppliesEightSteps : Obligations.RoundAppliesEightSteps := by
  intro r hr s
  have hexec := exec_of_issueError_none (i := .round r) (s := s) nofun (checkRound_of_lt hr)
  have hbody : commandBody (.round r) s = s.setV (roundFn s.v s.m ⟨r.val, hr⟩) := roundBody_of_lt hr s
  refine ⟨_, hexec, completed_finish_commandBody _ s, ?_⟩
  rw [hbody, roundFn_eq_foldl]
  simp [roundStep, gslot]

end Sys2Proof.Machine
end

section
/-! SUPPORT. Proofs about the block compressor: its stages as commands, COMPRESS, and a host program as the composition of
the commands it runs (42_block.md). -/

namespace Sys2Proof.Machine

/-- A command none of whose errors applies completes, and leaves in H, V, M and T what its body leaves. The completed
state is not spelled out, so that what is proved of it goes through these equations. -/
theorem exec_completes {i : Instr} (hi : i ≠ .nop) {s : State} (he : issueError i s = none) :
    ∃ t, exec i s = .next t ∧ Completed s t ∧ t.h = (commandBody i s).h ∧ t.v = (commandBody i s).v ∧
      t.m = (commandBody i s).m ∧ t.t = (commandBody i s).t :=
  ⟨_, exec_of_issueError_none hi he, completed_finish_commandBody i s, State.finish_h _, State.finish_v _,
    State.finish_m _, State.finish_t _⟩

/-! ### The parse stage: LOADM (R62, R150) -/

theorem checkBlockRange_of_inside {s : State} (h : s.inAddr.toNat + 128 ≤ s.params.inSize) : checkBlockRange s = none :=
  if_neg h.not_gt

/-- Byte `j` of word `i` of the parsed block at `a` is the byte of IN at `a + 8 i + j`, at any alignment of `a` (R62). -/
theorem parsedBlock_byte (mem : Memory) (a : Nat) (i : Fin 16) (j : Fin 8) :
    (Vector.ofFn fun i => le64 (mem.readBlock a) i)[i].extractLsb' (8 * j.val) 8 = mem.read (a + 8 * i.val + j.val) := by
  rw [Fin.getElem_fin, Vector.getElem_ofFn, le64_byte, Memory.readBlock, Vector.getElem_ofFn, Nat.add_assoc]

theorem commandBody_loadm (s : State) : commandBody .loadm s = parseStage (s.mem.readBlock s.inAddr.toNat) s :=
  loadmBody_eq s

/-- Settles O14: the range test passes, and the body of LOADM parses the block at IN_ADDR. -/
theorem loadmParsesTheBlock : Obligations.LoadmParsesTheBlock := by
  intro s h
  obtain ⟨t, hexec, hcompleted, hh, hv, hm, ht⟩ := exec_completes (i := .loadm) nofun (checkBlockRange_of_inside h)
  rw [commandBody_loadm] at hh hv hm ht
  refine ⟨t, hexec, hcompleted, hh.trans (parseStage_h _ s), hv.trans (parseStage_v _ s), ht.trans (parseStage_t _ s),
    fun i j => ?_⟩
  rw [hm, parseStage_m, parsedBlock_byte]

/-! ### The initialise stage: INIT (R151) -/

section InitVector
variable (h : Vector U64 8) (t : U128) (f0 f1 : Bool)

theorem initVector_chain (i : Fin 8) : (initVector h t f0 f1)[i.val] = h[i] := by
  fin_cases i <;> rfl

theorem initVector_iv (i : Fin 4) : (initVector h t f0 f1)[8 + i.val] = iv[i.val] := by
  fin_cases i <;> rfl

theorem low64_eq_ofNat : low64 t = BitVec.ofNat 64 (t.toNat % 2 ^ 64) := by
  rw [← low64_toNat, BitVec.ofNat_toNat, BitVec.setWidth_eq]

theorem high64_eq_ofNat : high64 t = BitVec.ofNat 64 (t.toNat / 2 ^ 64) := by
  rw [← high64_toNat, BitVec.ofNat_toNat, BitVec.setWidth_eq]

theorem initVector_counter :
    (initVector h t f0 f1)[12] = iv[4] ^^^ BitVec.ofNat 64 (t.toNat % 2 ^ 64) ∧
    (initVector h t f0 f1)[13] = iv[5] ^^^ BitVec.ofNat 64 (t.toNat / 2 ^ 64) := by
  rw [← low64_eq_ofNat, ← high64_eq_ofNat]
  exact ⟨rfl, rfl⟩

end InitVector

/-- XOR with the mask of a flag inverts the word exactly where the flag is set (R13). -/
theorem xor_mask64 (x : U64) (b : Bool) : x ^^^ mask64 b = if b then ~~~x else x := by
  cases b with
  | false => exact BitVec.xor_zero
  | true => exact BitVec.xor_allOnes

/-- Settles O15: INIT has no raise line, and its body writes `initVector`, which is read slot by slot. -/
theorem initBuildsTheWorkingVector : Obligations.InitBuildsTheWorkingVector := by
  intro f0 f1 s
  obtain ⟨t, hexec, hcompleted, hh, hv, hm, ht⟩ := exec_completes (i := .init f0 f1) (s := s) nofun rfl
  have hv : t.v = initVector s.h s.t f0 f1 := hv
  obtain ⟨h12, h13⟩ := initVector_counter s.h s.t f0 f1
  refine ⟨t, hexec, hcompleted, hh, hm, ht, ?_⟩
  rw [hv]
  exact ⟨initVector_chain s.h s.t f0 f1, initVector_iv s.h s.t f0 f1, h12, h13, xor_mask64 iv[6] f0,
    xor_mask64 iv[7] f1⟩

/-! ### The fold stage: FOLD (R152, R157) -/

section FoldVector
variable (h : Vector U64 8) (v : Vector U64 16)

theorem foldVector_getElem (i : Fin 8) : (foldVector h v)[i] = h[i] ^^^ v[i.val] ^^^ v[i.val + 8] := by
  rw [foldVector, Fin.getElem_fin, Vector.getElem_ofFn]

/-- Folding the same vector in twice cancels. -/
theorem foldVector_foldVector : foldVector (foldVector h v) v = h := by
  have hcancel (x a b : U64) : x ^^^ a ^^^ b ^^^ a ^^^ b = x := by grind
  refine Vector.ext fun i hi => ?_
  simpa [foldVector] using hcancel h[i] v[i] v[i + 8]

end FoldVector

/-- FOLD has no raise line, and writes H only. -/
theorem exec_fold (s : State) :
    ∃ t, exec .fold s = .next t ∧ Completed s t ∧ t.h = foldVector s.h s.v ∧ t.v = s.v ∧ t.m = s.m ∧ t.t = s.t :=
  exec_completes (i := .fold) nofun rfl

/-- Settles O16: every word of `foldVector` is the XOR of three. -/
theorem foldXorsBothHalves : Obligations.FoldXorsBothHalves := by
  intro s
  obtain ⟨t, hexec, hcompleted, hh, hv, hm, ht⟩ := exec_fold s
  exact ⟨t, hexec, hcompleted, hv, hm, ht, fun i => by rw [hh, foldVector_getElem]⟩

/-- Settles O17: the second FOLD folds in the same V as the first, so the two cancel. -/
theorem foldTwiceRestoresTheChain : Obligations.FoldTwiceRestoresTheChain := by
  intro s
  obtain ⟨t, hexec, -, hh, hv, -, -⟩ := exec_fold s
  obtain ⟨u, hexec', -, hh', hv', -, -⟩ := exec_fold t
  exact ⟨t, u, hexec, hexec', by rw [hh', hh, hv, foldVector_foldVector], hv'.trans hv⟩

/-! ### CompressBlock and COMPRESS (R153, R154) -/

section Compress
variable (blk : Vector Byte 128) (f0 f1 : Bool) (s : State)

@[simp] theorem compressBlock_v :
    (compressBlock blk f0 f1 s).v = allRounds (initVector s.h s.t f0 f1) (Vector.ofFn fun i => le64 blk i) := by
  rw [compressBlock, foldStage_v, roundsStage_v, initStage_v, initStage_m, parseStage_m, parseStage_h, parseStage_t]

@[simp] theorem roundsStage_h : (roundsStage s).h = s.h := by
  rw [roundsStage, gSteps_h, State.setHidden_h]

@[simp] theorem compressBlock_h : (compressBlock blk f0 f1 s).h = compressedChain s.h s.t blk f0 f1 := by
  rw [compressBlock, foldStage_h, roundsStage_h, roundsStage_v, initStage_h, initStage_v, initStage_m, parseStage_m,
    parseStage_h, parseStage_t, compressedChain]

end Compress

theorem commandBody_compress (f0 f1 : Bool) (s : State) :
    commandBody (.compress f0 f1) s = compressBlock (s.mem.readBlock s.inAddr.toNat) f0 f1 s := rfl

/-- COMPRESS on a block that lies in IN is CompressBlock on that block. -/
theorem exec_compress_of_inside {s : State} (h : s.inAddr.toNat + 128 ≤ s.params.inSize) (f0 f1 : Bool) :
    ∃ t, exec (.compress f0 f1) s = .next t ∧ Completed s t ∧
      t.h = compressedChain s.h s.t (s.mem.readBlock s.inAddr.toNat) f0 f1 ∧
      t.v = allRounds (initVector s.h s.t f0 f1) t.m ∧
      t.m = (Vector.ofFn fun i => le64 (s.mem.readBlock s.inAddr.toNat) i) ∧ t.t = s.t := by
  obtain ⟨t, hexec, hcompleted, hh, hv, hm, ht⟩ :=
    exec_completes (i := .compress f0 f1) nofun (checkBlockRange_of_inside h)
  have hm := hm.trans (compressBlock_m _ f0 f1 s)
  refine ⟨t, hexec, hcompleted, hh.trans (compressBlock_h _ f0 f1 s), ?_, hm, ht.trans (compressBlock_t _ f0 f1 s)⟩
  rw [hm]
  exact hv.trans (compressBlock_v _ f0 f1 s)

/-- Settles O18: M is the parsed block, and the chain value of R154 is the old one with that V folded in. -/
theorem compressComputesTheChainValue : Obligations.CompressComputesTheChainValue := by
  intro f0 f1 s h
  obtain ⟨t, hexec, hcompleted, hh, hv, hm, ht⟩ := exec_compress_of_inside h f0 f1
  refine ⟨t, hexec, hcompleted, ht, fun i j => by rw [hm, parsedBlock_byte], hv, fun i => ?_⟩
  rw [hh, compressedChain, foldVector_getElem, hv, hm]

theorem Memory.readBlock_congr {m m' : Memory} {a a' : Nat}
    (h : ∀ j : Fin 128, m.read (a + j.val) = m'.read (a' + j.val)) : m.readBlock a = m'.readBlock a' :=
  congrArg Vector.ofFn (funext h)

/-- Settles O19: H, V and M after COMPRESS are functions of H, T, the block and the flags. -/
theorem compressIgnoresOldVAndM : Obligations.CompressIgnoresOldVAndM := by
  intro f0 f1 s s' t t' hh ht hin hin' hbytes hexec hexec'
  obtain ⟨u, hu, -, huh, huv, hum, -⟩ := exec_compress_of_inside hin f0 f1
  obtain ⟨u', hu', -, huh', huv', hum', -⟩ := exec_compress_of_inside hin' f0 f1
  cases hu.symm.trans hexec
  cases hu'.symm.trans hexec'
  have hm : t.m = t'.m := by rw [hum, hum', Memory.readBlock_congr hbytes]
  exact ⟨by rw [huh, huh', hh, ht, Memory.readBlock_congr hbytes], by rw [huv, huv', hh, ht, hm], hm⟩

/-! ### What the body of a command reads -/

/-- The two states agree on the data registers and on everything else that a command may read, the hidden registers apart
(R21 to R27, R60). -/
structure SameData (s s' : State) : Prop where
  h : s.h = s'.h := by rfl
  v : s.v = s'.v := by rfl
  m : s.m = s'.m := by rfl
  t : s.t = s'.t := by rfl
  inAddr : s.inAddr = s'.inAddr := by rfl
  len : s.len = s'.len := by rfl
  mem : s.mem = s'.mem := by rfl
  params : s.params = s'.params := by rfl

namespace SameData
variable {s s' : State}

theorem trans {u : State} (d : SameData s s') (d' : SameData s' u) : SameData s u :=
  ⟨d.h.trans d'.h, d.v.trans d'.v, d.m.trans d'.m, d.t.trans d'.t, d.inAddr.trans d'.inAddr, d.len.trans d'.len,
    d.mem.trans d'.mem, d.params.trans d'.params⟩

theorem symm (d : SameData s s') : SameData s' s :=
  ⟨d.h.symm, d.v.symm, d.m.symm, d.t.symm, d.inAddr.symm, d.len.symm, d.mem.symm, d.params.symm⟩

theorem setH (d : SameData s s') {x x' : Vector U64 8} (h : x = x') : SameData (s.setH x) (s'.setH x') := { d with h }

theorem setV (d : SameData s s') {x x' : Vector U64 16} (h : x = x') : SameData (s.setV x) (s'.setV x') :=
  { d with v := h }

theorem setM (d : SameData s s') {x x' : Vector U64 16} (h : x = x') : SameData (s.setM x) (s'.setM x') :=
  { d with m := h }

theorem setAgenda_setAnswer (s : State) (l : List Event) (a : Answer) : SameData s ((s.setAgenda l).setAnswer a) := {}

theorem capture (s : State) (w : U64) : SameData s (s.capture w) := {}

theorem begin (s : State) : SameData s s.begin := {}

/-- The 96 hidden G steps are the 12 rounds, and write V only (R136). -/
theorem roundsStage (s : State) : SameData (s.setV (allRounds s.v s.m)) (roundsStage s) := by
  refine { v := (roundsStage_v s).symm, h := ?_, m := ?_, t := ?_, inAddr := ?_, len := ?_, mem := ?_, params := ?_ }
    <;> simp [Machine.roundsStage]

theorem foldStage (d : SameData s s') : SameData (foldStage s) (foldStage s') := d.setH (by rw [d.h, d.v])

theorem finish (s : State) : SameData s s.finish := {}

/-- The raise lines of a command read the data only (R222). -/
theorem issueError_eq (d : SameData s s') (i : Instr) : issueError i s' = issueError i s :=
  issueError_congr d.inAddr.symm d.len.symm d.params.symm i

theorem compressBlock (d : SameData s s') (blk : Vector Byte 128) (f0 f1 : Bool) :
    SameData (compressBlock blk f0 f1 s) (compressBlock blk f0 f1 s') := by
  constructor <;> simp only [compressBlock_h, compressBlock_v, compressBlock_m, compressBlock_t, compressBlock_inAddr,
    compressBlock_len, compressBlock_mem, compressBlock_params, d.h, d.t, d.inAddr, d.len, d.mem, d.params]

/-- A command leaves the same data in states with the same data. DRIVE, whose loop runs through hidden registers (R188), is
left out. -/
theorem commandBody (d : SameData s s') {i : Instr} (hi : ∀ fin ln k, i ≠ .drive fin ln k) :
    SameData (commandBody i s) (commandBody i s') := by
  cases i with
  | nop => exact d
  | g => exact d.setV (by rw [d.v, d.m])
  | round r =>
    simp only [Machine.commandBody, roundBody]
    split
    · exact d.setV (by rw [d.v, d.m])
    · exact d
  | loadm => exact d.setM (by rw [d.mem, d.inAddr])
  | init => exact d.setV (by rw [d.h, d.t])
  | fold => exact d.foldStage
  | compress f0 f1 =>
    simp only [Machine.commandBody, d.mem, d.inAddr]
    exact d.compressBlock _ f0 f1
  | drive fin ln k => exact absurd rfl (hi fin ln k)

end SameData

/-! ### The steps of `RUN X` (R87, R222, R223) -/

section Steps
variable {s : State} {i : Instr} {rest : List Event}

theorem step_of_agenda_cons {e : Event} (h : s.agenda = e :: rest) : step s = eventStep e (s.setAgenda rest) := by
  unfold step nextEvent
  rw [h]

theorem engineStep_of_pend (hp : s.pend = true) (hi : decode s.cmd = .ok i) : engineStep s = exec i s := by
  unfold engineStep
  rw [if_pos hp, hi]

/-- A command that does not complete at issue goes in flight (R222). -/
theorem issue_of_not_completesAtIssue {w : U64} (h : decode w = .ok i)
    (hc : completesAtIssue i (s.capture w) = false) : issue w s = .next (s.capture w).begin := by
  unfold issue
  rw [h]
  simp [hc]

/-- The write of a command's word to CMD puts a command in flight none of whose errors applies. -/
theorem step_issue (hs : s.Idle) (hi : i ≠ .nop) (he : issueError i s = none)
    (h : s.agenda = .host (.regWrite cmdIndex (encode i)) :: rest) :
    ∃ u, step s = .next u ∧ SameData s u ∧ u.pend = true ∧ decode u.cmd = .ok i ∧ u.agenda = rest := by
  let s1 := (s.setAgenda rest).setAnswer .none
  have hidle : s1.Idle := hs
  have hdata := (SameData.setAgenda_setAnswer s rest .none).trans (.capture s1 (encode i))
  have hdecode := decodeOfEncodeIsTheCommand i
  have hflight : completesAtIssue i (s1.capture (encode i)) = false := by
    rw [completesAtIssue, hdata.issueError_eq, he]
    simpa using hi
  refine ⟨(s1.capture (encode i)).begin, ?_, hdata.trans (.begin _), rfl, hdecode, rfl⟩
  rw [step_of_agenda_cons h, ← issue_of_not_completesAtIssue hdecode hflight]
  exact hostRegWrite_cmd_of_idle hidle _

theorem step_readStatus (h : s.agenda = .host (.regRead 0x2D) :: rest) :
    step s = .next ((s.setAgenda rest).setAnswer (.word s.status.word)) :=
  step_of_agenda_cons h

/-- Polling STATUS leaves the data and the command in flight (R221). -/
theorem runSteps_polls {polls : Nat} (h : s.agenda = (List.replicate polls (HostProgram.rd 0x2D)).flatten ++ rest) :
    ∃ u, runSteps polls s = .next u ∧ SameData s u ∧ u.pend = s.pend ∧ u.cmd = s.cmd ∧ u.agenda = rest := by
  induction polls generalizing s with
  | zero => exact ⟨s, rfl, {}, rfl, rfl, h⟩
  | succ n ih =>
    rw [List.replicate_succ, List.flatten_cons, List.append_assoc] at h
    obtain ⟨u, hrun, hdata, hp, hcmd, hagenda⟩ := ih (s := (s.setAgenda _).setAnswer (.word s.status.word)) rfl
    exact ⟨u, (runSteps_of_step (step_readStatus h) n).trans hrun, (SameData.setAgenda_setAnswer s _ _).trans hdata, hp,
      hcmd, hagenda⟩

/-- The completion of a command in flight none of whose errors applies (R223). -/
theorem step_engine (hp : s.pend = true) (hcmd : decode s.cmd = .ok i) (hi : i ≠ .nop)
    (hdrive : ∀ fin ln k, i ≠ .drive fin ln k) (he : issueError i s = none) (h : s.agenda = .engine :: rest) :
    ∃ u, step s = .next u ∧ SameData (commandBody i s) u ∧ u.Idle ∧ u.agenda = rest := by
  have hdata : SameData s (s.setAgenda rest) := {}
  refine ⟨(commandBody i (s.setAgenda rest)).finish, ?_, (hdata.commandBody hdrive).trans (.finish _), ⟨rfl, rfl⟩, ?_⟩
  · rw [step_of_agenda_cons h, ← exec_of_issueError_none hi ((hdata.issueError_eq i).trans he)]
    exact engineStep_of_pend hp hcmd
  · rw [State.finish_agenda, commandBody_agenda, State.setAgenda_agenda]

end Steps

/-! ### A host program is the composition of its commands (R87, R155) -/

/-- From an idle state with the data of `s` the program `p` runs to an idle state with the data of `u`, whatever the host
does after it. -/
def Computes (p : List Event) (s u : State) : Prop :=
  ∀ (rest : List Event) (s' : State), SameData s s' → s'.Idle → s'.agenda = p ++ rest →
    ∃ u', runSteps p.length s' = .next u' ∧ SameData u u' ∧ u'.Idle ∧ u'.agenda = rest

theorem Computes.congr {p : List Event} {s u u' : State} (hp : Computes p s u) (d : SameData u u') : Computes p s u' := by
  intro rest s' hdata hidle h
  obtain ⟨t, hrun, hdata', hidle', h'⟩ := hp rest s' hdata hidle h
  exact ⟨t, hrun, d.symm.trans hdata', hidle', h'⟩

/-- The program alone in the agenda. -/
theorem Computes.runs {p : List Event} {s u : State} (hp : Computes p s u) (hidle : s.Idle) :
    ∃ t, runSteps p.length { s with agenda := p } = .next t ∧ SameData u t ∧ t.Idle := by
  obtain ⟨t, hrun, hdata, hidle', -⟩ := hp [] { s with agenda := p } {} hidle (List.append_nil p).symm
  exact ⟨t, hrun, hdata, hidle'⟩

theorem Computes.nil (s : State) : Computes [] s s := fun _ s' hdata hidle h => ⟨s', rfl, hdata, hidle, h⟩

theorem Computes.append {p q : List Event} {s t u : State} (hp : Computes p s t) (hq : Computes q t u) :
    Computes (p ++ q) s u := by
  intro rest s' hdata hidle h
  rw [List.append_assoc] at h
  obtain ⟨t', hrun, hdata', hidle', h'⟩ := hp _ s' hdata hidle h
  rw [List.length_append, runSteps_add hrun]
  exact hq rest t' hdata' hidle' h'

theorem run_length (polls : Nat) (i : Instr) : (HostProgram.run polls i).length = polls + 2 + 1 := by
  simp [HostProgram.run, HostProgram.issueCmd, HostProgram.wr, HostProgram.wait, HostProgram.rd]

/-- `RUN X` does to the data what the body of X does, at any latency (R223, R291). -/
theorem computes_run (polls : Nat) {i : Instr} {s : State} (hi : i ≠ .nop) (hdrive : ∀ fin ln k, i ≠ .drive fin ln k)
    (he : issueError i s = none) : Computes (HostProgram.run polls i) s (commandBody i s) := by
  intro rest s' hdata hidle h
  simp only [HostProgram.run, HostProgram.wait, List.append_assoc] at h
  obtain ⟨s1, hissue, hdata1, hp, hcmd, h1⟩ := step_issue hidle hi ((hdata.issueError_eq i).trans he) h
  obtain ⟨s2, hpolls, hdata2, hp2, hcmd2, h2⟩ := runSteps_polls h1
  have hdata' := (hdata.trans hdata1).trans hdata2
  obtain ⟨s3, hengine, hdata3, hidle3, h3⟩ := step_engine (hp2.trans hp) (hcmd2 ▸ hcmd) hi hdrive
    ((hdata'.issueError_eq i).trans he) h2
  have hread : step s3 = .next ((s3.setAgenda rest).setAnswer (.word s3.status.word)) := step_readStatus h3
  refine ⟨(s3.setAgenda rest).setAnswer (.word s3.status.word), ?_,
    ((hdata'.commandBody hdrive).trans hdata3).trans (.setAgenda_setAnswer s3 rest _), hidle3, rfl⟩
  rw [run_length, runSteps_of_step hissue, runSteps_add hpolls, runSteps_of_step hengine,
    runSteps_of_step hread, runSteps_zero]

theorem State.setV_setV (s : State) (x y : Vector U64 16) : (s.setV x).setV y = s.setV y := rfl

/-- A list of ROUND commands applies the rounds in order (R133). -/
theorem computes_roundList (polls : Fin 12 → Nat) (l : List (Fin 12)) (s : State) :
    Computes (l.map fun r => HostProgram.run (polls r) (.round (r.castLE (by omega)))).flatten s
      (s.setV (l.foldl (fun v r => roundFn v s.m r) s.v)) := by
  induction l generalizing s with
  | nil => exact .nil s
  | cons r l ih =>
    have hround := computes_run (polls r) (i := .round (r.castLE (by omega))) (s := s) nofun nofun
      (checkRound_of_lt r.isLt)
    rw [commandBody, roundBody_of_lt r.isLt] at hround
    have hrest := ih (s.setV (roundFn s.v s.m r))
    rw [State.setV_v, State.setV_m, State.setV_setV] at hrest
    rw [List.map_cons, List.flatten_cons, List.foldl_cons]
    exact hround.append hrest

theorem computes_rounds (polls : Fin 12 → Nat) (s : State) : Computes (HostProgram.rounds polls) s (roundsStage s) :=
  (computes_roundList polls (List.finRange 12) s).congr (.roundsStage s)

/-- The 15 commands compose to CompressBlock on the block at IN_ADDR (R155). -/
theorem computes_stages (f0 f1 : Bool) (pl pi pf : Nat) (pr : Fin 12 → Nat) {s : State}
    (h : s.inAddr.toNat + 128 ≤ s.params.inSize) :
    Computes (HostProgram.run pl .loadm ++ HostProgram.run pi (.init f0 f1) ++ HostProgram.rounds pr
      ++ HostProgram.run pf .fold) s (compressBlock (s.mem.readBlock s.inAddr.toNat) f0 f1 s) := by
  have hloadm := computes_run pl (i := .loadm) nofun nofun (checkBlockRange_of_inside h)
  rw [commandBody_loadm] at hloadm
  have hinit (u : State) : Computes _ u (initStage f0 f1 u) := computes_run pi (i := .init f0 f1) nofun nofun rfl
  have hfold (u : State) : Computes _ u (foldStage u) := computes_run pf (i := .fold) nofun nofun rfl
  exact ((hloadm.append (hinit _)).append (computes_rounds pr _)).append (hfold _)

/-- Settles O20: both programs compute CompressBlock on the block at IN_ADDR. -/
theorem stagesComposeToCompress : Obligations.StagesComposeToCompress := by
  intro f0 f1 pl pi pf q pr s hidle hin
  obtain ⟨t, ht, hdata, htidle⟩ := (computes_stages f0 f1 pl pi pf pr hin).runs hidle
  obtain ⟨u, hu, hdata', huidle⟩ :=
    (computes_run q (i := .compress f0 f1) nofun nofun (checkBlockRange_of_inside hin)).runs hidle
  rw [commandBody_compress] at hdata'
  have hsame := hdata.symm.trans hdata'
  have htt := hdata.t.symm.trans (compressBlock_t _ f0 f1 s)
  exact ⟨t, u, ht, hu, hsame.h, hsame.v, hsame.m, htt, hsame.t ▸ htt, htidle, huidle⟩

end Sys2Proof.Machine
end

section
/-! SUPPORT. Proofs about the multi-block controller: the quantities DRIVE derives from LEN, its block loop, and what a
DRIVE whose checks pass computes (43_driver.md). -/

namespace Sys2Proof.Machine

/-! ### FIN_OFF and FIN_LEN (R183, R184) -/

theorem satSub_eq_sub (a b : Nat) : satSub a b = a - b := by
  unfold satSub
  split <;> omega

/-- FIN_OFF counts the whole widths in `LEN - 1`. -/
theorem finalOffset_eq (len w : Nat) : finalOffset len w = (len - 1) / w * w := by
  rw [finalOffset, satSub_eq_sub, ← Nat.div_mul_self_eq_mod_sub_self]

theorem finalOffset_zero (w : Nat) : finalOffset 0 w = 0 := by
  rw [finalOffset_eq, Nat.zero_sub, Nat.zero_div, Nat.zero_mul]

theorem finalOffset_le_pred (len w : Nat) : finalOffset len w ≤ len - 1 := by
  rw [finalOffset_eq]
  exact Nat.div_mul_le_self _ w

theorem pred_lt_finalOffset_add (len : Nat) {w : Nat} (hw : 0 < w) : len - 1 < finalOffset len w + w := by
  rw [finalOffset_eq]
  exact Nat.lt_div_mul_add hw

theorem le_finalOffset {len w n : Nat} (hn : w ∣ n) (hle : n ≤ len - 1) : n ≤ finalOffset len w := by
  rw [finalOffset_eq, ← Nat.div_mul_cancel hn]
  exact Nat.mul_le_mul_right w (Nat.div_le_div_right hle)

/-- Settles O21: FIN_OFF is the number of whole widths in `LEN - 1`, times the width. -/
theorem finalOffsetIsGreatestMultiple : Obligations.FinalOffsetIsGreatestMultiple := by
  intro len w hw
  have hle := finalOffset_le_pred len w
  have hlt := pred_lt_finalOffset_add len hw
  exact ⟨dvd_finalOffset len w, hle, hlt, fun n => le_finalOffset, fun hlen => by omega⟩

theorem tailLength_zero (w : Nat) : tailLength 0 w = 0 := if_pos rfl

theorem tailLength_of_pos {len : Nat} (h : 1 ≤ len) (w : Nat) :
    tailLength len w = min (len - finalOffset len w) 128 := if_neg (by omega)

theorem tailLength_le (len w : Nat) : tailLength len w ≤ 128 := by
  unfold tailLength
  split <;> omega

/-- Settles O22: for `W = 128` the input reaches at most one width beyond FIN_OFF. -/
theorem tailLengthIsCapped : Obligations.TailLengthIsCapped := by
  refine ⟨tailLength_zero, fun len w h => tailLength_of_pos h w, fun len h => ?_⟩
  have hle := finalOffset_le_pred len 128
  have hlt := pred_lt_finalOffset_add len (w := 128) (by decide)
  rw [tailLength_of_pos h]
  omega

/-! ### The block loop (R188, R190, R191) -/

/-- One turn of the block loop before the final block (R188). -/
def driveTurn (w : Nat) (s : State) : State := advanceOff w (driveBlock s)

/-- The first `n` interior blocks of DRIVE, with their counter deltas and flags (R188). -/
def interiorBlocks (mem : Memory) (base w n : Nat) : List (Vector Byte 128 × Nat × Bool × Bool) :=
  (List.range n).map fun j => (mem.readBlock (base + j * w), 128, false, false)

theorem interiorBlocks_succ (mem : Memory) (base w n : Nat) : interiorBlocks mem base w (n + 1)
    = interiorBlocks mem base w n ++ [(mem.readBlock (base + n * w), 128, false, false)] := by
  rw [interiorBlocks, List.range_succ, List.map_append, ← interiorBlocks, List.map_singleton]

/-- DRIVE's blocks are the interior ones and the padded final one (R190). -/
theorem driveBlocks_eq (mem : Memory) (base len : Nat) (fin ln : Bool) (w : Nat) :
    driveBlocks mem base len fin ln w = interiorBlocks mem base w (finalOffset len w / w)
      ++ [(paddedBlock mem (base + finalOffset len w) (tailLength len w), tailLength len w, fin, fin && ln)] := rfl

section Turn
variable {w : Nat} {s : State}

theorem driveLoop_of_atFinal (hf : atFinal s = true) (n : Nat) : driveLoop (n + 1) w s = driveBlock s := if_pos hf

theorem driveLoop_of_not_atFinal (hf : atFinal s = false) (n : Nat) :
    driveLoop (n + 1) w s = driveLoop n w (driveTurn w s) := if_neg (by simp [hf])

theorem driveBlock_of_atFinal (hf : atFinal s = true) :
    driveBlock s =
      compressBlock s.hidden.fbuf (s.hidden.m0 != 0) (s.hidden.m1 != 0) (s.setT (addCounter s.t s.hidden.finLen)) :=
  if_pos hf

theorem driveBlock_of_not_atFinal (hf : atFinal s = false) :
    driveBlock s = compressBlock (s.mem.readBlock (s.inAddr.toNat + s.hidden.off.toNat)) false false
      (s.setT (addCounter s.t 128)) := if_neg (by simp [hf])

/-- Before the final block a turn of the loop compresses the block at OFF (R188, R189). -/
theorem driveTurn_chain (hf : atFinal s = false) : ((driveTurn w s).h, (driveTurn w s).t) =
    chainBlock (s.h, s.t) (s.mem.readBlock (s.inAddr.toNat + s.hidden.off.toNat), 128, false, false) := by
  rw [driveTurn, advanceOff, driveBlock_of_not_atFinal hf, State.setHidden_h, State.setHidden_t, compressBlock_h,
    compressBlock_t]
  rfl

end Turn

/-- `u` stands at block `n` of the block loop begun in `d`: OFF has advanced by `n` widths, the interior blocks before it
are compressed, and nothing else that the loop reads has changed. -/
structure AtBlock (w : Nat) (d : State) (n : Nat) (u : State) : Prop where
  off : u.hidden.off.toNat = n * w
  finOff : u.hidden.finOff = d.hidden.finOff
  finLen : u.hidden.finLen = d.hidden.finLen
  fbuf : u.hidden.fbuf = d.hidden.fbuf
  m0 : u.hidden.m0 = d.hidden.m0
  m1 : u.hidden.m1 = d.hidden.m1
  inAddr : u.inAddr = d.inAddr
  mem : u.mem = d.mem
  chain : (u.h, u.t) = (interiorBlocks d.mem d.inAddr.toNat w n).foldl chainBlock (d.h, d.t)

section AtBlock
variable {w n : Nat} {d u : State}

theorem AtBlock.start (w : Nat) (hd : d.hidden.off = 0) : AtBlock w d 0 d where
  off := by rw [hd, Nat.zero_mul]; rfl
  finOff := rfl
  finLen := rfl
  fbuf := rfl
  m0 := rfl
  m1 := rfl
  inAddr := rfl
  mem := rfl
  chain := rfl

theorem AtBlock.atFinal_eq (h : AtBlock w d n u) : atFinal u = decide (n * w = d.hidden.finOff.toNat) := by
  rw [atFinal, h.finOff, ← h.off, Bool.beq_eq_decide_eq]
  simp only [BitVec.toNat_eq]

/-- OFF does not wrap while it stays within FIN_OFF. -/
theorem AtBlock.off_advance (h : AtBlock w d n u) (hn : (n + 1) * w ≤ d.hidden.finOff.toNat) :
    (u.hidden.off + BitVec.ofNat 64 w).toNat = (n + 1) * w := by
  have hlt := d.hidden.finOff.isLt
  rw [BitVec.toNat_add, BitVec.toNat_ofNat, Nat.add_mod_mod, h.off, ← Nat.add_one_mul, Nat.mod_eq_of_lt (by omega)]

theorem AtBlock.turn (hw : 0 < w) (h : AtBlock w d n u) (hn : (n + 1) * w ≤ d.hidden.finOff.toNat) :
    atFinal u = false ∧ AtBlock w d (n + 1) (driveTurn w u) := by
  have hf : atFinal u = false := by
    rw [h.atFinal_eq, decide_eq_false_iff_not]
    rw [Nat.succ_mul] at hn
    omega
  obtain ⟨hoff, hfinOff, hfinLen, hfbuf, hm0, hm1⟩ := compressBlock_drive
    (u.mem.readBlock (u.inAddr.toNat + u.hidden.off.toNat)) false false (u.setT (addCounter u.t 128))
  rw [← driveBlock_of_not_atFinal hf] at hoff hfinOff hfinLen hfbuf hm0 hm1
  have hoff' : (driveTurn w u).hidden.off.toNat = (n + 1) * w := by
    rw [← h.off_advance hn]
    exact congrArg (fun x : U64 => (x + BitVec.ofNat 64 w).toNat) hoff
  have hchain : ((driveTurn w u).h, (driveTurn w u).t) =
      (interiorBlocks d.mem d.inAddr.toNat w (n + 1)).foldl chainBlock (d.h, d.t) := by
    rw [driveTurn_chain hf, h.chain, h.mem, h.inAddr, h.off, interiorBlocks_succ, List.foldl_concat]
  exact ⟨hf, {
    off := hoff'
    finOff := hfinOff.trans h.finOff
    finLen := hfinLen.trans h.finLen
    fbuf := hfbuf.trans h.fbuf
    m0 := hm0.trans h.m0
    m1 := hm1.trans h.m1
    inAddr := (driveBlock_inAddr u).trans h.inAddr
    mem := (driveBlock_mem u).trans h.mem
    chain := hchain }⟩

/-- The first `n` turns of the loop lead to block `n`, as long as that is not beyond FIN_OFF. -/
theorem exists_atBlock (hw : 0 < w) (hd : d.hidden.off = 0) (hn : n * w ≤ d.hidden.finOff.toNat) :
    ∃ u, AtBlock w d n u ∧ ∀ m, driveLoop (n + m) w d = driveLoop m w u := by
  induction n with
  | zero => exact ⟨d, .start w hd, fun m => by rw [Nat.zero_add]⟩
  | succ n ih =>
    obtain ⟨u, hu, hloop⟩ := ih ((Nat.mul_le_mul_right w n.le_succ).trans hn)
    obtain ⟨hf, hturn⟩ := hu.turn hw hn
    refine ⟨driveTurn w u, hturn, fun m => ?_⟩
    rw [Nat.add_right_comm, Nat.add_assoc, hloop, driveLoop_of_not_atFinal hf]

end AtBlock

/-- Allowed at least `N = FIN_OFF / W + 1` turns, the loop ends with the final block, which it reaches after the interior
ones (R190, R191). -/
theorem driveLoop_driveSetup {w : Nat} (hw : 0 < w) (fin ln : Bool) (s : State) :
    ∃ u, atFinal u = true ∧ AtBlock w (driveSetup fin ln w s) (finalOffset s.len.toNat w / w) u ∧
      ∀ n, finalOffset s.len.toNat w / w + 1 ≤ n → driveLoop n w (driveSetup fin ln w s) = driveBlock u := by
  have hlast : finalOffset s.len.toNat w / w * w = (driveSetup fin ln w s).hidden.finOff.toNat := by
    rw [driveSetup_finOff_toNat, Nat.div_mul_cancel (dvd_finalOffset _ w)]
  obtain ⟨u, hu, hloop⟩ := exists_atBlock hw (d := driveSetup fin ln w s) rfl hlast.le
  have hf : atFinal u = true := by rw [hu.atFinal_eq, decide_eq_true hlast]
  refine ⟨u, hf, hu, fun n hn => ?_⟩
  obtain ⟨m, rfl⟩ := Nat.exists_eq_add_of_le hn
  rw [Nat.add_assoc, Nat.add_comm 1 m, hloop, driveLoop_of_atFinal hf]

theorem blockWidth_pos {k : Fin 16} (hk : k ≠ 0) : 0 < 128 * k.val := by
  have := Fin.val_ne_of_ne hk
  omega

/-- Settles O27: any number of turns from N on ends with the final block, and DRIVE's body allows N. -/
theorem driveLoopEndsByItself : Obligations.DriveLoopEndsByItself := by
  intro fin ln k s n hk hn
  obtain ⟨u, -, -, hloop⟩ := driveLoop_driveSetup (blockWidth_pos hk) fin ln s
  exact (hloop n hn).trans (hloop _ le_rfl).symm

/-! ### The final block (R185, R186, R188, R189) -/

theorem mask64_bne_zero (b : Bool) : (mask64 b != 0) = b := by
  cases b <;> decide

/-- A delta that fits its 64-bit register advances T by its number (R13). -/
theorem addCounter_ofNat (t : U128) {n : Nat} (h : n < 2 ^ 64) :
    addCounter t (BitVec.ofNat 64 n) = t + BitVec.ofNat 128 n := by
  rw [addCounter, BitVec.setWidth_ofNat_of_le_of_lt (by decide) h]

/-- The chain value and the counter that the interior blocks leave (R188). -/
def interiorChain (w : Nat) (s : State) : Vector U64 8 × U128 :=
  (interiorBlocks s.mem s.inAddr.toNat w (finalOffset s.len.toNat w / w)).foldl chainBlock (s.h, s.t)

/-- The padded final block (R185). -/
def finalBlock (w : Nat) (s : State) : Vector Byte 128 :=
  paddedBlock s.mem (s.inAddr.toNat + finalOffset s.len.toNat w) (tailLength s.len.toNat w)

section Final
variable (fin ln : Bool) (w : Nat) (s : State)

theorem foldl_dropLast_driveBlocks :
    (driveBlocks s.mem s.inAddr.toNat s.len.toNat fin ln w).dropLast.foldl chainBlock (s.h, s.t)
      = interiorChain w s := by
  rw [driveBlocks_eq, List.dropLast_concat, interiorChain]

theorem drivenChain_eq_chainBlock : drivenChain s.h s.t s.mem s.inAddr.toNat s.len.toNat fin ln w
    = chainBlock (interiorChain w s) (finalBlock w s, tailLength s.len.toNat w, fin, fin && ln) := by
  rw [drivenChain_eq, foldl_dropLast_driveBlocks, finalBlock]

end Final

/-- The body of DRIVE ends with CompressBlock of the padded final block, in a state where the interior blocks are
compressed (R188). -/
theorem driveBody_eq {k : Fin 16} (hk : k ≠ 0) (fin ln : Bool) (s : State) :
    ∃ u : State, (u.h, u.t) = interiorChain (128 * k.val) s ∧
      driveBody fin ln k s = compressBlock (finalBlock (128 * k.val) s) fin (fin && ln)
        (u.setT (u.t + BitVec.ofNat 128 (tailLength s.len.toNat (128 * k.val)))) := by
  obtain ⟨u, hf, hu, hloop⟩ := driveLoop_driveSetup (blockWidth_pos hk) fin ln s
  have htail := tailLength_le s.len.toNat (128 * k.val)
  refine ⟨u, hu.chain, (hloop _ le_rfl).trans ?_⟩
  rw [driveBlock_of_atFinal hf, hu.fbuf, hu.m0, hu.m1, hu.finLen, ← addCounter_ofNat u.t (by omega)]
  simp only [driveSetup, State.setHidden_hidden, mask64_bne_zero, finalBlock]

/-! ### A DRIVE whose checks pass (R180 to R193) -/

/-- The checks of DRIVE pass: its field, its range and its contract (R180, R187, R193). -/
structure DrivePasses (fin : Bool) (k : Fin 16) (s : State) : Prop where
  k_ne : k ≠ 0
  inside : s.inAddr.toNat + s.len.toNat ≤ s.params.inSize
  contract : fin = true ∨ s.params.contractMode = .compute ∨ 128 ≤ s.len.toNat - finalOffset s.len.toNat (128 * k.val)

/-- A call keeps the contract if it is final or leaves a full final block (R187). -/
theorem contractBroken_eq_false {fin : Bool} {len w : Nat} (h : fin = true ∨ 128 ≤ len - finalOffset len w) :
    contractBroken fin len w = false := by
  obtain rfl | h := h
  · rfl
  · have hlen : len ≠ 0 := by omega
    simp [contractBroken, hlen, h]

theorem checkDrive_of_passes {fin : Bool} {k : Fin 16} {s : State} (h : DrivePasses fin k s) :
    checkDrive fin k s = none := by
  have hkept : (s.params.contractMode = .fault && contractBroken fin s.len.toNat (blockWidth k)) = false := by
    obtain hfin | hmode | hfull := h.contract
    · rw [contractBroken_eq_false (.inl hfin), Bool.and_false]
    · rw [hmode]
      rfl
    · rw [blockWidth, contractBroken_eq_false (.inr hfull), Bool.and_false]
  unfold checkDrive
  rw [if_neg h.k_ne, if_neg h.inside.not_gt, hkept]
  rfl

/-- What a DRIVE whose checks pass leaves in the data registers: H and T fold its blocks, M and V are those of the final
block, begun from the chain value that the blocks before it left (R188, R192). -/
theorem exec_drive_of_passes {fin : Bool} {k : Fin 16} {s : State} (h : DrivePasses fin k s) (ln : Bool) :
    ∃ t, exec (.drive fin ln k) s = .next t ∧ Completed s t ∧
      (t.h, t.t) = drivenChain s.h s.t s.mem s.inAddr.toNat s.len.toNat fin ln (128 * k.val) ∧
      t.m = (Vector.ofFn fun i => le64 (finalBlock (128 * k.val) s) i) ∧
      t.v = allRounds (initVector (interiorChain (128 * k.val) s).1 t.t fin (fin && ln)) t.m ∧
      t.h = foldVector (interiorChain (128 * k.val) s).1 t.v := by
  obtain ⟨t, hexec, hcompleted, hh, hv, hm, ht⟩ :=
    exec_completes (i := .drive fin ln k) nofun (checkDrive_of_passes h)
  obtain ⟨u, hu, hbody⟩ := driveBody_eq h.k_ne fin ln s
  have hbody : commandBody (.drive fin ln k) s = _ := hbody
  rw [hbody] at hh hv hm ht
  rw [compressBlock_h, State.setT_h, State.setT_t] at hh
  rw [compressBlock_v, State.setT_h, State.setT_t] at hv
  rw [compressBlock_m] at hm
  rw [compressBlock_t, State.setT_t] at ht
  refine ⟨t, hexec, hcompleted, ?_, hm, ?_, ?_⟩
  · rw [drivenChain_eq_chainBlock, ← hu, hh, ht, chainBlock]
  · rw [← hu, hv, ht, hm]
  · rw [← hu, hh, hv, compressedChain]

/-- Settles O23: the loop's turns are the interior blocks, and M, V and the last fold are those of the final block. -/
theorem driveFoldsItsBlocks : Obligations.DriveFoldsItsBlocks := by
  intro fin ln k s hk hin hcontract
  obtain ⟨t, hexec, hcompleted, hchain, hm, hv, hh⟩ := exec_drive_of_passes ⟨hk, hin, hcontract⟩ ln
  refine ⟨t, hexec, hcompleted, hchain, fun i => ?_, ?_⟩
  · rw [hm, Fin.getElem_fin, Vector.getElem_ofFn, finalBlock]
  · rw [foldl_dropLast_driveBlocks]
    exact ⟨hv, fun i => by rw [hh, foldVector_getElem]⟩

/-- T advances by the sum of the blocks' deltas (R189). -/
theorem foldl_chainBlock_counter (l : List (Vector Byte 128 × Nat × Bool × Bool)) (ht : Vector U64 8 × U128) :
    (l.foldl chainBlock ht).2 = ht.2 + BitVec.ofNat 128 (l.map fun b => b.2.1).sum := by
  induction l generalizing ht with
  | nil => exact (BitVec.add_zero _).symm
  | cons b l ih =>
    rw [List.foldl_cons, ih, List.map_cons, List.sum_cons, BitVec.ofNat_add, ← BitVec.add_assoc]
    rfl

theorem driveBlocks_deltas_sum (mem : Memory) (base len : Nat) (fin ln : Bool) (w : Nat) :
    ((driveBlocks mem base len fin ln w).map fun b => b.2.1).sum
      = 128 * (finalOffset len w / w) + tailLength len w := by
  simp [driveBlocks_eq, interiorBlocks, Function.comp_def, Nat.mul_comm]

/-- Settles O24: every interior block advances T by 128, and the final block by FIN_LEN. -/
theorem driveAdvancesTheCounter : Obligations.DriveAdvancesTheCounter := by
  intro fin ln k s hk hin hcontract
  obtain ⟨t, hexec, -, hchain, -⟩ := exec_drive_of_passes ⟨hk, hin, hcontract⟩ ln
  have ht : t.t = _ := congrArg Prod.snd hchain
  refine ⟨t, hexec, ?_⟩
  rw [ht, drivenChain, foldl_chainBlock_counter, driveBlocks_deltas_sum, BitVec.toNat_add, BitVec.toNat_ofNat,
    Nat.add_mod_mod]

/-! ### DRIVE on empty input (R190) -/

theorem paddedBlock_zero (mem : Memory) (a : Nat) : paddedBlock mem a 0 = Vector.replicate 128 0 := by
  refine Vector.ext fun i hi => ?_
  simp [paddedBlock]

theorem driveBlocks_of_empty (mem : Memory) (base : Nat) (fin ln : Bool) (w : Nat) :
    driveBlocks mem base 0 fin ln w = [(Vector.replicate 128 0, 0, fin, fin && ln)] := by
  rw [driveBlocks_eq, finalOffset_zero, tailLength_zero, paddedBlock_zero, Nat.zero_div]
  rfl

theorem le64_zeros (i : Fin 16) : le64 (Vector.replicate 128 0) i = 0 := by
  simp [le64, littleEndian]

/-- Settles O25: there is no interior block, and the final block is all padding. -/
theorem driveOfNothingCompressesOneBlock : Obligations.DriveOfNothingCompressesOneBlock := by
  intro ln k s hk hlen hin
  have hlen : s.len.toNat = 0 := by rw [hlen]; rfl
  obtain ⟨t, hexec, -, hchain, hm, -⟩ := exec_drive_of_passes (fin := true) (s := s) ⟨hk, by omega, .inl rfl⟩ ln
  rw [hlen, drivenChain, driveBlocks_of_empty, List.foldl_cons, List.foldl_nil, chainBlock] at hchain
  rw [finalBlock, hlen, tailLength_zero, paddedBlock_zero] at hm
  simp only [le64_zeros] at hm
  obtain ⟨hh, ht⟩ := Prod.mk.inj hchain
  have ht0 : s.t + BitVec.ofNat 128 0 = s.t := BitVec.add_zero _
  rw [ht0] at hh ht
  exact ⟨t, hexec, ht, hm, hh⟩

/-! ### The last-node request (R186) -/

/-- Settles O26: no check reads ln, and the last-node mask is that of `fin && ln`, which is false for both. -/
theorem driveIgnoresLastNodeUnlessFinal : Obligations.DriveIgnoresLastNodeUnlessFinal := by
  intro k s
  have hcheck : issueError (.drive false true k) s = issueError (.drive false false k) s := rfl
  have hbody : commandBody (.drive false true k) = commandBody (.drive false false k) := rfl
  rw [exec_eq (i := .drive false true k) nofun, exec_eq (i := .drive false false k) nofun, hcheck, hbody]

/-! ### Two DRIVEs as one (R195) -/

theorem finalOffset_add {l1 w : Nat} (hw : 0 < w) (h1 : w ∣ l1) {l2 : Nat} (h2 : 0 < l2) :
    finalOffset (l1 + l2) w = l1 + finalOffset l2 w := by
  obtain ⟨c, rfl⟩ := h1
  rw [finalOffset_eq, finalOffset_eq, Nat.add_sub_assoc h2, Nat.mul_add_div hw, Nat.add_mul, Nat.mul_comm c]

theorem tailLength_add {l1 w : Nat} (hw : 0 < w) (h1 : w ∣ l1) {l2 : Nat} (h2 : 0 < l2) :
    tailLength (l1 + l2) w = tailLength l2 w := by
  rw [tailLength_of_pos (by omega), tailLength_of_pos h2, finalOffset_add hw h1 h2, Nat.add_sub_add_left]

theorem paddedBlock_full (mem : Memory) (a : Nat) : paddedBlock mem a 128 = mem.readBlock a := by
  refine Vector.ext fun i hi => ?_
  simp [paddedBlock, Memory.readBlock]

theorem interiorBlocks_add (mem : Memory) (base w m n : Nat) :
    interiorBlocks mem base w (m + n) = interiorBlocks mem base w m ++ interiorBlocks mem (base + m * w) w n := by
  simp only [interiorBlocks, List.range_add, List.map_append, List.map_map, Function.comp_def, Nat.add_mul,
    Nat.add_assoc]

/-- On whole blocks of width 128 a DRIVE that is not final treats its last block as it does the others (R185, R195). -/
theorem driveBlocks_of_whole (mem : Memory) (base : Nat) {m : Nat} (hm : 0 < m) (ln : Bool) :
    driveBlocks mem base (m * 128) false ln 128 = interiorBlocks mem base 128 m := by
  obtain ⟨n, rfl⟩ := Nat.exists_eq_add_of_le' hm
  have hoff : finalOffset ((n + 1) * 128) 128 = n * 128 := by rw [finalOffset_eq]; omega
  have htail : tailLength ((n + 1) * 128) 128 = 128 := by rw [tailLength_of_pos (by omega), hoff]; omega
  rw [driveBlocks_eq, hoff, htail, paddedBlock_full, Nat.mul_div_cancel n (by decide), interiorBlocks_succ]
  rfl

/-- The blocks of one final DRIVE are those of the two that share its input at a block's end (R195). -/
theorem driveBlocks_append (mem : Memory) (base : Nat) {l1 l2 : Nat} (h : 0 < l1) (h1 : 128 ∣ l1) (h2 : 0 < l2)
    (fin ln ln' : Bool) : driveBlocks mem base (l1 + l2) fin ln 128
      = driveBlocks mem base l1 false ln' 128 ++ driveBlocks mem (base + l1) l2 fin ln 128 := by
  rw [driveBlocks_eq, finalOffset_add (by decide) h1 h2, tailLength_add (by decide) h1 h2]
  obtain ⟨m, rfl⟩ := exists_eq_mul_left_of_dvd h1
  rw [driveBlocks_of_whole mem base (by omega), driveBlocks_eq, Nat.add_div_of_dvd_right h1,
    Nat.mul_div_cancel m (by decide), interiorBlocks_add, List.append_assoc, Nat.add_assoc]

theorem drivenChain_append (h : Vector U64 8) (t : U128) (mem : Memory) (base : Nat) {l1 l2 : Nat} (hl : 0 < l1)
    (h1 : 128 ∣ l1) (h2 : 0 < l2) (fin ln ln' : Bool) : drivenChain h t mem base (l1 + l2) fin ln 128
      = drivenChain (drivenChain h t mem base l1 false ln' 128).1 (drivenChain h t mem base l1 false ln' 128).2 mem
          (base + l1) l2 fin ln 128 := by
  rw [drivenChain, driveBlocks_append mem base hl h1 h2 fin ln ln', List.foldl_append]
  rfl

/-- A DRIVE with blocks of width 128, with what a DRIVE after it needs: H and T, and that IN and the parameters stay. -/
theorem exec_drive_one {fin : Bool} {s : State} {len : Nat} (hlen : s.len.toNat = len)
    (hin : s.inAddr.toNat + len ≤ s.params.inSize) (hfull : fin = true ∨ 128 ≤ len - finalOffset len 128) (ln : Bool) :
    ∃ t, exec (.drive fin ln 1) s = .next t ∧ t.mem = s.mem ∧ t.params = s.params ∧
      (t.h, t.t) = drivenChain s.h s.t s.mem s.inAddr.toNat len fin ln 128 := by
  subst hlen
  have hpasses : DrivePasses fin 1 s := ⟨by decide, hin, hfull.imp_right .inr⟩
  obtain ⟨t, hexec, -, hchain, -⟩ := exec_drive_of_passes hpasses ln
  obtain ⟨hmem, hparams⟩ := exec_mem_params hexec
  exact ⟨t, hexec, hmem, hparams, hchain⟩

/-- Settles O28: the blocks of the two DRIVEs in a row are the blocks of the one, and H and T fold them. -/
theorem driveIsIncremental : Obligations.DriveIsIncremental := by
  intro ln ln' L1 L2 s h1 hdvd h2 hlt hin hsize
  have htoNat {n : Nat} (hn : n < 2 ^ 64) : (BitVec.ofNat 64 n).toNat = n := Nat.mod_eq_of_lt hn
  have haddr : (s.inAddr + BitVec.ofNat 64 L1).toNat = s.inAddr.toNat + L1 := by
    rw [BitVec.toNat_add, htoNat (by omega), Nat.mod_eq_of_lt (by omega)]
  have hfull : 128 ≤ L1 - finalOffset L1 128 := by
    have := Nat.mod_eq_zero_of_dvd hdvd
    rw [finalOffset_eq]
    omega
  obtain ⟨t, ht, htmem, htparams, htchain⟩ := exec_drive_one (s := { s with len := BitVec.ofNat 64 L1 })
    (htoNat (by omega)) (show s.inAddr.toNat + L1 ≤ s.params.inSize by omega) (.inr hfull) ln'
  obtain ⟨u, hu, -, -, huchain⟩ := exec_drive_one
    (s := { t with inAddr := s.inAddr + BitVec.ofNat 64 L1, len := BitVec.ofNat 64 L2 }) (fin := true)
    (htoNat (by omega)) (by simp only [haddr, htparams]; omega) (.inl rfl) ln
  obtain ⟨w, hw, -, -, hwchain⟩ := exec_drive_one (s := { s with len := BitVec.ofNat 64 (L1 + L2) }) (fin := true)
    (htoNat hlt) hin (.inl rfl) ln
  have hsame : (u.h, u.t) = (w.h, w.t) := by
    rw [huchain, hwchain, drivenChain_append _ _ _ _ h1 hdvd h2 true ln ln', ← htchain, haddr, htmem]
  obtain ⟨hh, hcounter⟩ := Prod.mk.inj hsame
  exact ⟨t, u, w, ht, hu, hw, hh, hcounter⟩

end Sys2Proof.Machine
end

section
/-! SUPPORT. Proofs about host control: the first error a command word reports at issue, NOP, and the write and the read
map of the register port (44_control.md). -/

namespace Sys2Proof.Machine

open Laws (rowOf)

/-! ### The first error that applies to a word (R84, R241) -/

/-- The opcode of a command (R83). -/
def opcodeOf : Instr → Nat
  | .nop => 0
  | .g _ _ _ _ _ _ => 1
  | .round _ => 2
  | .loadm => 3
  | .init _ _ => 4
  | .fold => 5
  | .compress _ _ => 6
  | .drive _ _ _ => 7

theorem opcodeOf_lt_eight (i : Instr) : opcodeOf i < 8 := by
  cases i <;> simp [opcodeOf]

theorem opcodeOf_eq_zero_iff {i : Instr} : opcodeOf i = 0 ↔ i = .nop := by
  cases i <;> simp [opcodeOf]

theorem exists_opcodeOf_eq : ∀ {n : Nat}, n < 8 → ∃ i, opcodeOf i = n
  | 0, _ => ⟨.nop, rfl⟩
  | 1, _ => ⟨.g 0 0 0 0 0 0, rfl⟩
  | 2, _ => ⟨.round 0, rfl⟩
  | 3, _ => ⟨.loadm, rfl⟩
  | 4, _ => ⟨.init false false, rfl⟩
  | 5, _ => ⟨.fold, rfl⟩
  | 6, _ => ⟨.compress false false, rfl⟩
  | 7, _ => ⟨.drive false false 0, rfl⟩

theorem matchBits_opcode (i : Instr) : (nibble (rowOf i).matchBits 0).val = opcodeOf i := by
  cases i <;> rfl

/-- The row test of R83 by the opcode's mask and number, as `firstError` makes it. -/
theorem selects_iff_and_maskOf (i : Instr) (w : U64) :
    (rowOf i).selects w = true ↔ w &&& maskOf (opcodeOf i) = BitVec.ofNat 64 (opcodeOf i) := by
  have hmask : maskOf (opcodeOf i) = (rowOf i).mask := by cases i <;> rfl
  have hmatch : BitVec.ofNat 64 (opcodeOf i) = (rowOf i).matchBits := by cases i <;> rfl
  rw [hmask, hmatch, OpcodeRow.selects, beq_iff_eq]

theorem fieldNat_eq_nibble (w : U64) (lo : Nat) : fieldNat w lo = (nibble w lo).val :=
  (nibble_val w lo).symm

theorem pairwise_ne_iff_slotsDistinct (a b c d : Fin 16) :
    [a.val, b.val, c.val, d.val].Pairwise (fun x y => x ≠ y) ↔ slotsDistinct a b c d = true := by
  simp [slotsDistinct, Fin.ext_iff, and_assoc]

theorem contractBroken_iff {fin : Bool} {len w : Nat} :
    contractBroken fin len w = true ↔ fin = false ∧ (len = 0 ∨ len - finalOffset len w < 128) := by
  simp [contractBroken]

theorem getD_ite {c : Prop} [Decidable c] (a b : Option ErrCode) (d : ErrCode) :
    (if c then a else b).getD d = if c then a.getD d else b.getD d :=
  apply_ite (Option.getD · d) c a b

section FirstError
variable {w : U64} {i : Instr} {e : ErrCode}

theorem fieldNat_zero_of_decode (h : decode w = .ok i) : fieldNat w 0 = opcodeOf i := by
  rw [fieldNat_eq_nibble, opcode_of_selects (decode_eq_ok_iff.mp h).1, matchBits_opcode]

theorem decode_of_eight_le (h : 8 ≤ fieldNat w 0) : decode w = .error .illegalOpcode := by
  rw [fieldNat_eq_nibble] at h
  unfold decode
  split
  case h_9 => rfl
  all_goals omega

/-- A word that is no command reports the decoder's code (R241 items 1 and 2). -/
theorem firstError_of_decode_error (h : decode w = .error e) (s : State) : firstError w s = e := by
  by_cases hop : 8 ≤ fieldNat w 0
  · cases (decode_of_eight_le hop).symm.trans h
    exact if_pos hop
  · obtain ⟨i, hi⟩ := exists_opcodeOf_eq (not_le.mp hop)
    rw [decode_of_opcode (by rw [← fieldNat_eq_nibble, ← hi, matchBits_opcode])] at h
    have hsel : ¬ (rowOf i).selects w = true := fun hsel => by simp [selectedBy, hsel] at h
    rw [selects_iff_and_maskOf, hi] at hsel
    rw [selectedBy_eq_error h, firstError, if_neg hop, if_pos hsel]

/-- A word that is a command reports the first raise line of the command that applies (R241 items 3 to 5). -/
theorem firstError_of_decode_ok (h : decode w = .ok i) (s : State) : firstError w s = (issueError i s).getD .ok := by
  obtain ⟨hsel, hfields⟩ := decode_eq_ok_iff.mp h
  have hop := fieldNat_zero_of_decode h
  have hlow : ¬ fieldNat w 0 ≥ 8 := by rw [hop]; exact (opcodeOf_lt_eight i).not_ge
  have hmask : ¬ w &&& maskOf (fieldNat w 0) ≠ BitVec.ofNat 64 (fieldNat w 0) := by
    rw [hop]; exact not_not.mpr ((selects_iff_and_maskOf i w).mp hsel)
  rw [firstError, if_neg hlow, if_neg hmask, hop]
  cases i with
  | nop | init | fold => rfl
  | g a b c d mx my =>
    injection hfields with ha hb hc hd
    simp only [fieldNat_eq_nibble, ha, hb, hc, hd, pairwise_ne_iff_slotsDistinct]
    cases hs : slotsDistinct a b c d <;> simp [opcodeOf, issueError, checkG, hs]
  | round r =>
    injection hfields with hr
    simp [fieldNat_eq_nibble, hr, opcodeOf, issueError, checkRound, getD_ite]
  | loadm | compress => simp [opcodeOf, issueError, checkBlockRange, getD_ite]
  | drive fin ln k =>
    injection hfields with hfin _ hk
    simp [fieldNat_eq_nibble, hfin, hk, opcodeOf, issueError, checkDrive, getD_ite, contractBroken_iff, blockWidth,
      -BitVec.getLsbD_eq_getElem]

theorem issueError_ne_some_ok (i : Instr) (s : State) : issueError i s ≠ some .ok := by
  cases i with
  | nop | init | fold => nofun
  | g | round | loadm | compress => simp [issueError, checkG, checkRound, checkBlockRange]
  | drive fin ln k =>
    change checkDrive fin k s ≠ some .ok
    unfold checkDrive
    split_ifs <;> nofun

@[simp] theorem issueError_capture (i : Instr) (s : State) (w : U64) : issueError i (s.capture w) = issueError i s :=
  issueError_congr (s.capture_inAddr w) (s.capture_len w) (s.capture_params w) i

/-- With no error to report a word is a command none of whose raise lines applies. -/
theorem exists_decode_of_firstError_ok {s : State} (h : firstError w s = .ok) :
    ∃ i, decode w = .ok i ∧ issueError i s = none := by
  cases hd : decode w with
  | error e =>
    obtain rfl : e = .ok := (firstError_of_decode_error hd s).symm.trans h
    exact absurd (decode_eq_error hd) (by decide)
  | ok i =>
    refine ⟨i, rfl, ?_⟩
    cases he : issueError i s with
    | none => rfl
    | some e =>
      rw [firstError_of_decode_ok hd, he] at h
      exact absurd (h ▸ he) (issueError_ne_some_ok i s)

/-- A word with an error to report ends at issue with that error (R222). -/
theorem issue_of_firstError {s : State} (h : firstError w s ≠ .ok) :
    issue w s = .next ((s.capture w).raise (firstError w s)) := by
  cases hd : decode w with
  | error e => rw [firstError_of_decode_error hd, issue_of_decode_error hd]
  | ok i =>
    cases he : issueError i s with
    | none => exact absurd (by rw [firstError_of_decode_ok hd, he]; rfl) h
    | some e =>
      have he' := (issueError_capture i s w).trans he
      rw [firstError_of_decode_ok hd, he, issue_of_issueError hd he', Option.getD_some]

theorem issue_of_decode_nop (h : decode w = .ok .nop) (s : State) : issue w s = .next (s.capture w).complete := by
  unfold issue
  rw [h]
  exact exec_nop (s.capture w)

end FirstError

/-! ### Issue (R222, R224) -/

/-- A word captured by an idle machine that completes without an error: CMD holds it, DONE is set, ERR is OK. -/
theorem complete_capture_of_idle {s : State} (h : s.Idle) (w : U64) :
    (s.capture w).complete = { s with cmd := w, status := { s.status with done := true, err := .ok } } := by
  obtain ⟨hbusy, hpend⟩ := h
  calc (s.capture w).complete
      = { s with cmd := w, status := { s.status with busy := false, done := true, err := .ok }, pend := false } := rfl
    _ = _ := by simp only [hbusy, hpend]

theorem completed_complete (s : State) : Completed s s.complete := by
  constructor <;> simp [Status.completed]

/-- Settles O5: with an error to report the word raises it; without one it is a command, and NOP alone completes. -/
theorem issueReportsTheFirstError : Obligations.IssueReportsTheFirstError := by
  intro w s hs
  rw [hostRegWrite_cmd_of_idle hs]
  by_cases he : firstError w s = .ok
  · rw [if_neg (not_not.mpr he)]
    obtain ⟨i, hd, hnone⟩ := exists_decode_of_firstError_ok he
    have hop := fieldNat_zero_of_decode hd
    by_cases hi : i = .nop
    · subst hi
      rw [if_pos (show fieldNat w 0 = 0 from hop), issue_of_decode_nop hd, complete_capture_of_idle hs]
    · rw [if_neg (by rwa [hop, opcodeOf_eq_zero_iff])]
      exact issue_of_not_completesAtIssue hd (by simp [completesAtIssue, hnone, hi])
  · rw [if_pos he, issue_of_firstError he, raise_capture_of_idle hs]

/-- Settles O11: NOP's rule is the completion alone, no error applies to the word 0, and the mask of opcode 0x0 covers
every bit. -/
theorem nopOnlyCompletes : Obligations.NopOnlyCompletes := by
  refine ⟨fun s => ⟨_, exec_nop s, completed_complete s, rfl, rfl, rfl, rfl, rfl⟩, fun s hs => ?_,
    fun w s hs hop hw => ?_⟩
  · rw [hostRegWrite_cmd_of_idle hs, issue_of_decode_nop rfl, complete_capture_of_idle hs]
  · have hmask : w &&& maskOf 0 = w := BitVec.and_allOnes
    have he : firstError w s = .illegalField := by
      rw [firstError, if_neg (by omega), if_pos (by rwa [hop, hmask])]
    rw [hostRegWrite_cmd_of_idle hs, issue_of_firstError (by rw [he]; decide), he, raise_capture_of_idle hs]

/-! ### The write map of the register port (R220, R225, R226) -/

theorem and_not_eq_ite (a b : Bool) : (a && !b) = if b then false else a := by
  cases b <;> simp

/-- Settles O43: STATUS is updated by `Status.writeOneClears`, whether BUSY is 0 or 1. -/
theorem statusWriteClearsOnes : Obligations.StatusWriteClearsOnes := by
  intro v s
  have hwrite : hostRegWrite 0x2D v s = .next (s.setStatus (s.status.writeOneClears v)) := rfl
  rw [hwrite, Status.writeOneClears]
  simp only [and_not_eq_ite]
  rfl

theorem whenIdle_of_busy {s : State} (hb : s.status.busy = true) (o : Outcome) : whenIdle s o = .next s.markWrb :=
  if_pos hb

theorem whenIdle_of_not_busy {s : State} (hb : s.status.busy = false) (o : Outcome) : whenIdle s o = o :=
  if_neg (by simp [hb])

/-- Below the reserved indices the register named has the index it is named by (R30). -/
theorem index_portReg_of_lt {idx : Fin 64} (h : idx.val < 0x2E) : (portReg idx).index = idx.val := by
  rw [index_portReg]
  omega

/-- Settles O41: every register of these indices is written only while idle. -/
theorem writesWhileBusyAreDropped : Obligations.WritesWhileBusyAreDropped := by
  intro idx v s hb hidx
  have hindex := index_portReg_of_lt (idx := idx) (by omega)
  unfold hostRegWrite
  cases hp : portReg idx <;> simp only [hp, PortReg.index] at hindex
  case status | reserved => omega
  all_goals exact whenIdle_of_busy hb _

theorem vector_set_eq_setIfInBounds {α : Type} {n : Nat} (x : Vector α n) (i : Fin n) (a : α) :
    x.set i a = x.setIfInBounds i.val a := by
  refine Vector.ext fun j hj => ?_
  rw [Vector.getElem_set, Vector.getElem_setIfInBounds]

/-- Settles O36: the reserved indices, STATUS and a busy port have their own statements; an idle one issues the word
written to CMD, and writes every other register by `State.writeReg`. -/
theorem registerWriteMap : Obligations.RegisterWriteMap := by
  intro idx v s
  by_cases hreserved : 0x2E ≤ idx.val
  · rw [if_pos hreserved]
    exact (reservedIndicesOnlySetUnm idx v s hreserved).1
  by_cases hstatus : idx.val = 0x2D
  · obtain rfl : idx = 0x2D := Fin.ext hstatus
    exact statusWriteClearsOnes v s
  by_cases hb : s.status.busy = true
  · rw [if_neg hreserved, if_neg hstatus, if_pos hb]
    exact writesWhileBusyAreDropped idx v s hb (by omega)
  have hidle := Bool.eq_false_of_not_eq_true hb
  by_cases hcmd : idx.val = 0x2C
  · obtain rfl : idx = 0x2C := Fin.ext hcmd
    rw [if_neg hreserved, if_neg hstatus, if_neg hb, if_pos hcmd]
    exact whenIdle_of_not_busy hidle _
  have hindex := index_portReg_of_lt (not_le.mp hreserved)
  rw [if_neg hreserved, if_neg hstatus, if_neg hb, if_neg hcmd, hostRegWrite_of_idle hidle (by omega)]
  cases hp : portReg idx <;> simp only [hp, PortReg.index] at hindex <;> rw [← hindex]
  case h i => rw [if_pos (by omega), ← vector_set_eq_setIfInBounds]; rfl
  case v i =>
    rw [if_neg (by omega), if_pos (by omega), Nat.add_sub_cancel_left, ← vector_set_eq_setIfInBounds]
    rfl
  case m i =>
    rw [if_neg (by omega), if_neg (by omega), if_pos (by omega), Nat.add_sub_cancel_left, ← vector_set_eq_setIfInBounds]
    rfl
  case tLo | tHi | inAddr | len => rfl
  case cmd | status | reserved => omega

/-! ### The read map of the register port (R221, R227) -/

section Read
variable {idx : Fin 64} {s : State}

/-- A read of a register is exact while idle, and at any time for IN_ADDR, LEN, CMD and STATUS (R221). -/
theorem hostRegRead_exact (hidx : idx.val < 0x2E) (h : s.status.busy = false ∨ 0x2A ≤ idx.val) :
    hostRegRead idx s = .next (s.setAnswer (.word (s.readReg (portReg idx)))) := by
  have hindex := index_portReg_of_lt hidx
  unfold hostRegRead
  cases hp : portReg idx <;> simp only [hp, PortReg.index] at hindex
  case inAddr | len | cmd | status => rfl
  case reserved => omega
  all_goals
    have hb : s.status.busy = false := h.resolve_right (by omega)
    simp [State.readData, State.readReg, hb]

/-- While busy a read of H, V, M or T draws a free value (R227). -/
theorem hostRegRead_of_busy (hb : s.status.busy = true) (hidx : idx.val < 0x2A) :
    hostRegRead idx s = .next { s with answer := .word (Config.busyRead s.draws), draws := s.draws + 1 } := by
  have hindex := index_portReg_of_lt (idx := idx) (by omega)
  unfold hostRegRead
  cases hp : portReg idx <;> simp only [hp, PortReg.index] at hindex
  case inAddr | len | cmd | status | reserved => omega
  all_goals exact congrArg _ (if_pos hb)

end Read

/-- Settles O37: STATUS, CMD, IN_ADDR and LEN are always read exactly, H, V, M and T while idle only. -/
theorem registerReadMap : Obligations.RegisterReadMap := by
  intro idx s
  by_cases hreserved : 0x2E ≤ idx.val
  · rw [if_pos hreserved]
    exact (reservedIndicesOnlySetUnm idx 0 s hreserved).2
  have hidx := not_le.mp hreserved
  by_cases hcontrol : 0x2A ≤ idx.val
  · obtain rfl | rfl | rfl | rfl : idx = 0x2A ∨ idx = 0x2B ∨ idx = 0x2C ∨ idx = 0x2D := by omega
    all_goals exact hostRegRead_exact hidx (.inr hcontrol)
  rw [if_neg hreserved, if_neg (by omega), if_neg (by omega), if_neg (by omega), if_neg (by omega)]
  by_cases hb : s.status.busy = true
  · rw [if_pos hb]
    exact ⟨_, hostRegRead_of_busy hb (not_le.mp hcontrol)⟩
  have hindex := index_portReg_of_lt hidx
  rw [if_neg hb, hostRegRead_exact hidx (.inl (Bool.eq_false_of_not_eq_true hb))]
  cases hp : portReg idx <;> simp only [hp, PortReg.index] at hindex <;> rw [← hindex]
  case h i => rw [if_pos (by omega), Vector.getElem?_eq_getElem i.isLt]; rfl
  case v i =>
    rw [if_neg (by omega), if_pos (by omega), Nat.add_sub_cancel_left, Vector.getElem?_eq_getElem i.isLt]
    rfl
  case m i =>
    rw [if_neg (by omega), if_neg (by omega), if_pos (by omega), Nat.add_sub_cancel_left,
      Vector.getElem?_eq_getElem i.isLt]
    rfl
  case tLo | tHi => rfl
  case inAddr | len | cmd | status | reserved => omega

end Sys2Proof.Machine
end

section
/-! SUPPORT. Proofs about exceptions and the end of a run: the idle machine (60_exceptions.md). -/

namespace Sys2Proof.Machine

section Idle
variable {s : State}

/-- With no event left the step is the engine's turn (R291). -/
theorem step_of_agenda_nil (h : s.agenda = []) : step s = engineStep s := by
  unfold step nextEvent
  rw [h]

/-- The engine is enabled only while PEND = 1 (R223). -/
theorem engineStep_of_not_pend (hp : s.pend = false) : engineStep s = .next s := by
  unfold engineStep
  rw [if_neg (Bool.eq_false_iff.mp hp)]

end Idle

/-- Settles O51: the step is the engine's turn, and the engine has nothing in flight. -/
theorem idleKeepsAllState : Obligations.IdleKeepsAllState := fun _ hp h =>
  (step_of_agenda_nil h).trans (engineStep_of_not_pend hp)

end Sys2Proof.Machine
end

section
/-! SUPPORT. Proofs about reset, the write into a read range, and `RUN X` of any command at any latency
(70_reset_and_hazards.md). -/

namespace Sys2Proof.Machine

/-! ### A command computes the same in states with the same data, hidden registers apart (R33) -/

namespace SameData
variable {s s' : State}

theorem raise (s : State) (e : ErrCode) : SameData s (s.raise e) := {}

theorem complete (s : State) : SameData s s.complete := {}

/-- DRIVE sets the hidden registers that its block loop reads, so its final CompressBlock starts from the same chain value
and counter (R183 to R188). -/
theorem driveBody (d : SameData s s') {k : Fin 16} (hk : k ≠ 0) (fin ln : Bool) :
    SameData (driveBody fin ln k s) (driveBody fin ln k s') := by
  obtain ⟨u, hchain, hbody⟩ := driveBody_eq hk fin ln s
  obtain ⟨u', hchain', hbody'⟩ := driveBody_eq hk fin ln s'
  have hblock : finalBlock (128 * k.val) s = finalBlock (128 * k.val) s' := by
    rw [finalBlock, finalBlock, d.mem, d.inAddr, d.len]
  have hinterior : interiorChain (128 * k.val) s = interiorChain (128 * k.val) s' := by
    rw [interiorChain, interiorChain, d.mem, d.inAddr, d.len, d.h, d.t]
  obtain ⟨hh, ht⟩ := Prod.mk.inj (hchain.trans (hinterior.trans hchain'.symm))
  constructor
  case inAddr | len | mem | params => simp [d.inAddr, d.len, d.mem, d.params]
  case h | v | m | t => simp [hbody, hbody', hblock, hh, ht, d.len]

/-- The body of a command none of whose errors applies. -/
theorem commandBody_of_issueError_none (d : SameData s s') {i : Instr} (he : issueError i s = none) :
    SameData (Machine.commandBody i s) (Machine.commandBody i s') := by
  cases i with
  | drive fin ln k =>
    have hk : k ≠ 0 := by
      rintro rfl
      simp [issueError, checkDrive] at he
    exact d.driveBody hk fin ln
  | nop | g | round | loadm | init | fold | compress => exact d.commandBody nofun

/-- A command ends with the same data in states with the same data, errors included. -/
theorem exec_next (d : SameData s s') {i : Instr} {t : State} (h : exec i s = .next t) :
    ∃ t', exec i s' = .next t' ∧ SameData t t' := by
  obtain ⟨e, he, h'⟩ | ⟨rfl, h'⟩ | ⟨hi, he, h'⟩ := exec_cases i s <;> cases h'.symm.trans h
  · exact ⟨_, exec_of_issueError_some ((d.issueError_eq i).trans he), ((raise s e).symm.trans d).trans (raise s' e)⟩
  · exact ⟨_, exec_nop s', ((complete s).symm.trans d).trans (complete s')⟩
  · have hbody := d.commandBody_of_issueError_none he
    exact ⟨_, exec_of_issueError_none hi ((d.issueError_eq i).trans he),
      ((finish _).symm.trans hbody).trans (finish _)⟩

end SameData

/-! ### `RUN X` of any command (R87, R222, R223, R290, R291) -/

/-- In `u` the command `i` has ended with the data of `t` (R223, R242). -/
structure Ended (i : Instr) (t u : State) : Prop where
  idle : u.Idle
  done : u.status.done = true
  cmd : u.cmd = encode i
  data : SameData t u

/-- In `u` the command `i`, issued with the data of `s`, has ended at issue with the data of `t`, or is in flight
(R222). -/
inductive Issued (i : Instr) (s t u : State) : Prop where
  | ended (h : Ended i t u)
  | inFlight (data : SameData s u) (pend : u.pend = true) (cmd : u.cmd = encode i)

section Run
variable {i : Instr} {s s' t u : State} {rest : List Event}

theorem Ended.setAgenda_setAnswer (h : Ended i t u) (l : List Event) (a : Answer) :
    Ended i t ((u.setAgenda l).setAnswer a) :=
  { h with data := h.data.trans (.setAgenda_setAnswer u l a) }

theorem Issued.setAgenda_setAnswer (h : Issued i s t u) (l : List Event) (a : Answer) :
    Issued i s t ((u.setAgenda l).setAnswer a) := by
  cases h with
  | ended h => exact .ended (h.setAgenda_setAnswer l a)
  | inFlight data pend cmd => exact .inFlight (data.trans (.setAgenda_setAnswer u l a)) pend cmd

/-- The command in CMD ends with the same data wherever the data it starts from are the same. -/
theorem exec_ended (d : SameData s s') (hcmd : s'.cmd = encode i) (ht : exec i s = .next t) :
    ∃ u, exec i s' = .next u ∧ Ended i t u ∧ u.agenda = s'.agenda := by
  obtain ⟨u, hu, hdata⟩ := d.exec_next ht
  obtain ⟨u', hu', hbusy, hdone, hpend⟩ := everyCommandEnds i s'
  cases hu'.symm.trans hu
  obtain ⟨-, -, hkept, -, -, hagenda, -⟩ := exec_kept hu
  exact ⟨u, hu, ⟨⟨hbusy, hpend⟩, hdone, hkept.trans hcmd, hdata⟩, hagenda⟩

/-- A command that completes at issue runs its whole rule there (R222). -/
theorem issue_of_completesAtIssue {w : U64} (h : decode w = .ok i) (hc : completesAtIssue i (s.capture w) = true) :
    issue w s = exec i (s.capture w) := by
  unfold issue
  rw [h]
  exact if_pos hc

theorem issue_issued (d : SameData s s') (ht : exec i s = .next t) :
    ∃ u, issue (encode i) s' = .next u ∧ Issued i s t u ∧ u.agenda = s'.agenda := by
  have hdecode := decodeOfEncodeIsTheCommand i
  have hdata := d.trans (.capture s' (encode i))
  cases hc : completesAtIssue i (s'.capture (encode i)) with
  | true =>
    obtain ⟨u, hu, hended, hagenda⟩ := exec_ended hdata (s'.capture_cmd (encode i)) ht
    exact ⟨u, (issue_of_completesAtIssue hdecode hc).trans hu, .ended hended, hagenda⟩
  | false => exact ⟨_, issue_of_not_completesAtIssue hdecode hc, .inFlight (hdata.trans (.begin _)) rfl rfl, rfl⟩

/-- The write of a command's word to CMD issues the command, whatever errors it may have. -/
theorem step_issued (d : SameData s s') (hs : s'.Idle) (ht : exec i s = .next t)
    (h : s'.agenda = .host (.regWrite cmdIndex (encode i)) :: rest) :
    ∃ u, step s' = .next u ∧ Issued i s t u ∧ u.agenda = rest := by
  have hidle : ((s'.setAgenda rest).setAnswer .none).Idle := hs
  obtain ⟨u, hu, hissued, hagenda⟩ := issue_issued (d.trans (.setAgenda_setAnswer s' rest .none)) ht
  exact ⟨u, (step_of_agenda_cons h).trans ((hostRegWrite_cmd_of_idle hidle _).trans hu), hissued, hagenda⟩

/-- Polling STATUS changes the agenda and the answer only (R221). -/
theorem runSteps_polls_eq {polls : Nat}
    (h : s.agenda = (List.replicate polls (HostProgram.rd 0x2D)).flatten ++ rest) :
    ∃ a, runSteps polls s = .next ((s.setAgenda rest).setAnswer a) := by
  induction polls generalizing s with
  | zero =>
    obtain rfl : s.agenda = rest := h
    exact ⟨s.answer, rfl⟩
  | succ n ih =>
    rw [List.replicate_succ, List.flatten_cons, List.append_assoc] at h
    obtain ⟨a, hrun⟩ := ih (s := (s.setAgenda _).setAnswer (.word s.status.word)) rfl
    exact ⟨a, (runSteps_of_step (step_readStatus h) n).trans hrun⟩

/-- After its turn the engine has ended the command, which the turn completes if it is in flight (R223). -/
theorem engineStep_ended (ht : exec i s = .next t) (hu : Issued i s t u) :
    ∃ u', engineStep u = .next u' ∧ Ended i t u' ∧ u'.agenda = u.agenda := by
  cases hu with
  | ended h => exact ⟨u, engineStep_of_not_pend h.idle.2, h, rfl⟩
  | inFlight data pend cmd =>
    rw [engineStep_of_pend pend (cmd ▸ decodeOfEncodeIsTheCommand i)]
    exact exec_ended data cmd ht

/-- A WAIT ends with the command ended, and its last read shows STATUS (R87, R291). -/
theorem runSteps_wait (ht : exec i s = .next t) (hu : Issued i s t u) {polls : Nat}
    (h : u.agenda = HostProgram.wait polls) :
    ∃ u', runSteps (polls + 2) u = .next u' ∧ Ended i t u' ∧ u'.agenda = [] ∧ u'.answer = .word u'.status.word := by
  obtain ⟨a, hpolls⟩ := runSteps_polls_eq h
  obtain ⟨u2, hengine, hended, hagenda⟩ := engineStep_ended ht (hu.setAgenda_setAnswer (HostProgram.rd 0x2D) a)
  have hturn : step ((u.setAgenda (.engine :: HostProgram.rd 0x2D)).setAnswer a) = .next u2 :=
    (step_of_agenda_cons (e := .engine) (rest := HostProgram.rd 0x2D) rfl).trans hengine
  refine ⟨_, ?_, hended.setAgenda_setAnswer [] (.word u2.status.word), rfl, rfl⟩
  rw [runSteps_add hpolls, runSteps_of_step hturn, runSteps_of_step (step_readStatus hagenda), runSteps_zero]

end Run

/-- Settles O47: the write to CMD ends the command or puts it in flight, polling changes neither, and after the engine's
turn it has ended. -/
theorem runEndsAtAnyLatency : Obligations.RunEndsAtAnyLatency := by
  intro i polls s t hs ht
  obtain ⟨u1, hissue, hissued, hagenda1⟩ :=
    step_issued (s' := s.setAgenda (HostProgram.run polls i)) {} hs ht rfl
  obtain ⟨u, hwait, hended, hagenda, hanswer⟩ := runSteps_wait ht hissued hagenda1
  obtain ⟨hidle, hdone, hcmd, hdata⟩ := hended
  rw [run_length]
  exact ⟨u, (runSteps_of_step hissue _).trans hwait, hidle, hagenda, hanswer, hdone, hcmd, hdata.h.symm, hdata.v.symm,
    hdata.m.symm, hdata.t.symm⟩

/-! ### The write into the read range of the command in flight (R293) -/

theorem inReadRange_iff {i : Instr} {s : State} (hi : decode s.cmd = .ok i) (a : Nat) :
    inReadRange s a = true ↔ s.inAddr.toNat ≤ a ∧ a < s.inAddr.toNat + commandReads i s := by
  simp [inReadRange, readLength_eq hi]

/-- Settles O45: while busy a write inside IN is the fault exactly if it is in the read range. -/
theorem writeIntoReadRangeIsAHazard : Obligations.WriteIntoReadRangeIsAHazard := by
  intro a v i s hb hi ha
  unfold hostInWrite
  rw [if_pos ha, hb, Bool.true_and]
  simp only [inReadRange_iff hi]
  rfl

/-! ### Reset (R280) -/

/-- Settles O50: every register takes its value of `State.reset`, and IN, the parameters and the agenda are kept. -/
theorem resetAbandonsTheCommand : Obligations.ResetAbandonsTheCommand := by
  intro s rest h
  obtain ⟨hh, hv, hm, ht, hinAddr, hlen, hcmd, hstatus, hpend⟩ := resetValues
  obtain ⟨hmem, hparams, hagenda⟩ := resetState_kept (s.setAgenda rest)
  exact ⟨resetState (s.setAgenda rest), step_of_agenda_cons h, hh, hv, hm, ht, hinAddr, hlen, hcmd, hstatus, hpend,
    fun a => by rw [hmem, State.setAgenda_mem], hparams, hagenda⟩

end Sys2Proof.Machine
end

section
/-! SUPPORT. Proofs about the command a step runs and the model's own entry point (44_control.md), and about the values of
SIGMA (41_round.md). -/

namespace Sys2Proof.Machine

/-! ### The command a step runs (R222, R223) -/

section StepRuns
variable {s : State} {w : U64} {i : Instr} {rest : List Event}

/-- While BUSY is 0 a host write to CMD issues the word, whatever PEND is (R220). -/
theorem hostRegWrite_cmd_of_not_busy (hb : s.status.busy = false) (w : U64) :
    hostRegWrite cmdIndex w s = issue w s :=
  whenIdle_of_not_busy hb (issue w s)

/-- A command in flight is run by the engine's event (R223). -/
theorem step_engine_of_pend (hp : s.pend = true) (hi : decode s.cmd = .ok i) (h : s.agenda = .engine :: rest) :
    step s = exec i (s.setAgenda rest) :=
  (step_of_agenda_cons h).trans (engineStep_of_pend hp hi)

/-- The event of a host write to CMD while BUSY is 0 issues the word (R69, R222). -/
theorem step_write_cmd (hb : s.status.busy = false) (h : s.agenda = .host (.regWrite cmdIndex w) :: rest) :
    step s = issue w ((s.setAgenda rest).setAnswer .none) :=
  (step_of_agenda_cons h).trans
    (hostRegWrite_cmd_of_not_busy (s := (s.setAgenda rest).setAnswer .none) hb w)

/-- The issue of a command's word, said by whether the command completes in it (R222). -/
theorem issue_of_decode (hi : decode w = .ok i) (s : State) :
    issue w s = if completesAtIssue i (s.capture w) = true then exec i (s.capture w) else .next (s.capture w).begin := by
  split
  next hc => exact issue_of_completesAtIssue hi hc
  next hc => exact issue_of_not_completesAtIssue hi (Bool.eq_false_of_not_eq_true hc)

end StepRuns

/-- Settles O6: the engine's turn runs the command in CMD, and the write's event is the issue of its word. -/
theorem stepRunsTheDecodedCommand : Obligations.StepRunsTheDecodedCommand :=
  ⟨fun _ _ hp hi h => (step_of_agenda_nil h).trans (engineStep_of_pend hp hi),
    fun _ _ _ hp hi h => step_engine_of_pend hp hi h,
    fun _ _ _ _ hb hi h => (step_write_cmd hb h).trans (issue_of_decode hi _)⟩

/-! ### The model's own entry point (log 7) -/

/-- The idle state from which `placeCommand` issues its word. -/
def idled (s : State) : State := (s.setStatus { s.status with busy := false }).setPend false

section PlaceCommand
variable {s : State} {w : U64} {i : Instr}

/-- A command that goes in flight is placed in flight, with the engine's turn next. -/
theorem placeCommand_of_begin (h : issue w (idled s) = .next ((idled s).capture w).begin) :
    placeCommand w s = ((idled s).capture w).begin.setAgenda (.engine :: s.agenda) := by
  unfold idled at *
  simp [placeCommand, h]

/-- A word whose issue ends with nothing in flight is placed as the host's next write. -/
theorem placeCommand_of_not_pend {t : State} (h : issue w (idled s) = .next t) (hp : t.pend = false) :
    placeCommand w s = (idled s).setAgenda (.host (.regWrite cmdIndex w) :: s.agenda) := by
  unfold idled at *
  simp [placeCommand, h, hp]

/-- The step after `placeCommand` runs the command of the word: as the engine's turn, or in the host's write if the
command completes at issue. -/
theorem step_placeCommand (hi : decode w = .ok i) (s : State) :
    step (placeCommand w s) = exec i ((idled s).capture w).begin ∨
    step (placeCommand w s) = exec i (((idled s).setAnswer .none).capture w) := by
  cases hc : completesAtIssue i ((idled s).capture w) with
  | false =>
    rw [placeCommand_of_begin (issue_of_not_completesAtIssue hi hc)]
    exact .inl (step_engine_of_pend rfl hi rfl)
  | true =>
    obtain ⟨t, ht, -, -, hp⟩ := everyCommandEnds i ((idled s).capture w)
    have hc' : completesAtIssue i (((idled s).setAnswer .none).capture w) = true := by
      rw [← hc]
      exact completesAtIssue_congr i rfl rfl rfl
    rw [placeCommand_of_not_pend ((issue_of_completesAtIssue hi hc).trans ht) hp, ← issue_of_completesAtIssue hi hc']
    exact .inr (step_write_cmd rfl rfl)

end PlaceCommand

/-- Settles O7: both states the command may run in are the idled state with the word in CMD. -/
theorem fetchWordRunsThatCommand : Obligations.FetchWordRunsThatCommand := by
  intro s w i hi
  rw [State.withFetchWord]
  obtain h | h := step_placeCommand hi s <;> exact ⟨_, h, by simp [idled]⟩

/-! ### SIGMA (R35, R137) -/

/-- A round reads its index through its row of SIGMA only (R132). -/
theorem roundFn_congr {r r' : Fin 12} (h : sigma[r] = sigma[r']) (v m : Vector U64 16) :
    roundFn v m r = roundFn v m r' := by
  have hstep : roundStep m r = roundStep m r' := by
    funext v i
    simp only [roundStep, h]
  rw [roundFn, roundFn, hstep]

/-- Settles O33: rows 10 and 11 of SIGMA are rows 0 and 1. -/
theorem lastTwoRoundsRepeatTheFirst : Obligations.LastTwoRoundsRepeatTheFirst := fun v m =>
  ⟨roundFn_congr (by decide) v m, roundFn_congr (by decide) v m⟩

/-- No row of SIGMA names a message word twice. -/
theorem sigma_row_injective : ∀ r : Fin 12, Function.Injective fun p : Fin 16 => sigma[r][p] := by decide

/-- Settles O34: a row that names no word twice names each of the sixteen. -/
theorem sigmaRowsArePermutations : Obligations.SigmaRowsArePermutations := fun r =>
  (Finite.injective_iff_bijective.mp (sigma_row_injective r)).existsUnique

end Sys2Proof.Machine
end
